-- ==== Sys2Proof/Word.lean ====
section
/-!
DEFINITION. The word types of the device, the plain enumerations its commands and its state share,
and the descriptors of registers and register fields. Two's complement readings and saturation are
here because every chapter uses them.
-/

namespace Sys2Proof

/-- A register of the device is 32 bits wide (R8). -/
abbrev Word := BitVec 32
/-- One byte of on-chip memory. -/
abbrev Byte := BitVec 8
/-- An arm of the converter, 0 to 5 (R5, R6). -/
abbrev Arm := Fin 6
/-- A lane port: 0 to 5 are A0 to A5, 6 is T (R371). -/
abbrev Port := Fin 7
/-- A data lane Dk of an arm port. -/
abbrev DLane := Fin 8
/-- A cell slot of an arm, 0 to 1,023 (R5). -/
abbrev Slot := Fin 1024
/-- An application core B0 to B7. -/
abbrev Core := Fin 8
/-- A core that runs scalar QIS code: 0 to 7 are B0 to B7, 8 is BS (Table 10.2, CORE). -/
abbrev AnyCore := Fin 9
/-- A general register of a core. -/
abbrev GReg := Fin 32
/-- A vector register v0 to v15. -/
abbrev VReg := Fin 16
/-- An accumulator a0 to a3. -/
abbrev Acc := Fin 4
/-- A Midge converter. -/
abbrev Conv := Fin 16

/-- Who accesses a register: the station computer over PCIe, a Beetle core, or the safety core. -/
inductive Src where
  | host
  | core (n : Core)
  | bs
  /-- the device itself, for an output transfer or a safe image of a cyclic task (R287, R293) -/
  | device
  deriving DecidableEq, Repr

/-- The three grid registers whose writes R33 holds back. -/
inductive GridReg where
  | period
  | epoch
  | win
  deriving DecidableEq, Repr

/-- The engine a vector instruction runs on: Hornet, or a policy hook of one arm's Swarm (R278). -/
inductive Engine where
  | hornet
  | hook (arm : Arm)
  deriving DecidableEq, Repr

/-- Hornet's addressed spaces, in the code order of VLD (Table 10.10). -/
inductive Space where
  | inp
  | out
  | par
  | st
  deriving DecidableEq, Repr

/-- The condition of VBR (Table 10.10). -/
inductive VCond where
  | always
  | anyNonzero
  | allZero
  deriving DecidableEq, Repr

/-- Which of the three requests a cell makes by reflex word (Table 4.8). -/
inductive Request where
  | bypass
  | pbyp
  | selfBlocked
  deriving DecidableEq, Repr

/-- Why a data lane loses lock (R192): 16 stuffing violations within 1,000 ns, two bad upstream frames
in succession, or the phase tracker at its range limit. -/
inductive LolCause where
  | stuffing
  | frames
  | tracker
  deriving DecidableEq, Repr

/-- What the host has programmed in PCIe configuration space, and the link as trained: Bus Master
Enable, MSI-X enable and function mask, maximum read request size (128 << mrrs bytes), link speed
code and width (R402, R408, Table 17.8). -/
structure HostCfg where
  bme : Bool
  msixEn : Bool
  fnMask : Bool
  mrrs : Fin 6
  speed : Fin 5
  width : Fin 9
  deriving DecidableEq, Repr

/-- One field of a register: the register's offset, the field's lowest bit and its width. -/
structure Fld where
  addr : Nat
  lo : Nat
  width : Nat
  deriving DecidableEq, Repr

/-- The same field of another instance of the register, `d` bytes further. -/
def Fld.up (x : Fld) (d : Nat) : Fld := { x with addr := x.addr + d }

/-- A register or a window of registers: where its instances lie, its reset value, and which of its
bits have which access code (R13). An instance (i, j) lies at base + stride × i + stride2 × j. -/
structure RegDesc where
  base : Nat
  stride : Nat
  count : Nat
  stride2 : Nat
  count2 : Nat
  reset : Word
  rw : Word
  rwl : Word
  w1c : Word
  w1s : Word
  wo : Word
  deriving DecidableEq, Repr

/-- The integer a word holds in two's complement. -/
def sInt {w : Nat} (x : BitVec w) : Int := x.toInt

/-- Rounding toward zero, the division of R56. -/
def tdiv (a b : Int) : Int := Int.tdiv a b

/-- The largest and the smallest value of the signed range of `w` bits. -/
def sMax (w : Nat) : Int := 2 ^ (w - 1) - 1
def sMin (w : Nat) : Int := -(2 ^ (w - 1))

/-- The value clamped to the signed range of `w` bits. -/
def satInt (w : Nat) (x : Int) : Int :=
  if x > sMax w then sMax w else if x < sMin w then sMin w else x

/-- Whether a value lies outside the signed range of `w` bits. -/
def outOf (w : Nat) (x : Int) : Bool := decide (x > sMax w) || decide (x < sMin w)

/-- The saturated 32-bit result of an exact integer (R130, R258). -/
def sat32 (x : Int) : Word := BitVec.ofInt 32 (satInt 32 x)

/-- Arithmetic shift right by `n`, rounding half toward +∞ (R131, R171, MULQ). -/
def rshiftRound (x : Int) (n : Nat) : Int :=
  if n = 0 then x else (x + 2 ^ (n - 1)) / 2 ^ n

/-- Signed difference of two 32-bit counters, the comparison of R234. -/
def sdiff (a b : Word) : Int := (a - b).toInt

/-- A counter that stops at a limit. -/
def satAdd (lim a b : Nat) : Nat := min lim (a + b)

end Sys2Proof
end

