-- ==== Sys2Proof/Syntax.lean ====
section
/-!
DEFINITION. The commands of the device: one constructor for each row of spec/opcode_table.json, in
the table's order, with the row's operands. A command is one whole, indivisible step
(95_what_each_step_holds.md). An operand is what the outside world (or the part of the device the
state does not hold) brings to the step: an address, a value, a lane, a received frame.
-/

namespace Sys2Proof

/-- The commands: one constructor per row of spec/opcode_table.json. -/
inductive Instr where
  -- registers, memory and the sweep
  /-- R13: a write of a register that has no row of its own -/
  | registerWrite (src : Src) (off : BitVec 24) (be : BitVec 4) (data : Word)
  /-- R28 -/
  | unmappedAccess (off : BitVec 24) (write : Bool)
  /-- R11 -/
  | readLo (src : Src) (off : BitVec 24)
  /-- R26; `raced`: a write from another source reached the line before the write-back -/
  | scrubLine (raced : Bool)
  | scrubStarved
  | admissionPoint
  | commitPoint
  | lateLimit
  | hornetRun
  | swarmSelection
  /-- R224; `bad`: the frame slot, or 128 for the header, whose internal check fails, if one does -/
  | frameAssembly (bad : Option (Arm × DLane × Fin 129))
  | sweepGridWrite (src : Src) (reg : GridReg) (data : Word)
  | sweepsRun (src : Src)
  | sweepsStop (src : Src)
  -- operating-state commands (Table 2.3)
  | precharge
  | readyCmd
  | deblock
  | block
  | stop
  | reset
  | service
  | deblockAt
  | deblockAtDue
  -- Swarm: tests, hooks, tables, calibration, faults
  | testGo (arm : Arm)
  | hookLoad (arm : Arm)
  | hookLoadDone (arm : Arm)
  | refresh (arm : Arm)
  | refreshDone (arm : Arm)
  | tblStarved (arm : Arm)
  | clr (arm : Arm) (slot : Slot)
  | dcalStart
  | echoReq (arm : Arm) (lane : DLane)
  /-- R179, R220: the line bits received on the lane since the last of its commands, up to the end of the
reply; `rtt` in units of 1/8 ns -/
  | echoRep (arm : Arm) (lane : DLane) (line : List Bool) (rtt : Nat)
  | echoTimeout (arm : Arm) (lane : DLane)
  | dcalPassEnd
  | dcalStarved
  -- reflex words and upstream traffic
  | bypassReq (arm : Arm) (lane : DLane) (lslot : Fin 128) (fault : Fin 16) (rid : Fin 16)
  | pbypReq (arm : Arm) (lane : DLane) (lslot : Fin 128) (fault : Fin 16) (rid : Fin 16)
  | selfBlocked (arm : Arm) (lane : DLane) (lslot : Fin 128) (fault : Fin 16) (rid : Fin 16)
  /-- R217 -/
  | rfxFill (arm : Arm) (lane : DLane)
  /-- R179, R214: the line bits received on the lane since the last of its commands, up to the end of a
frame; `half`: the frame is due as a half frame (R215); `track`: the phase tracker's move, 0 to 2 for one
step down, none, one step up (R191) -/
  | upstreamFrame (arm : Arm) (lane : DLane) (half : Bool) (line : List Bool) (track : Fin 3)
  | eyeRep (arm : Arm) (lane : DLane) (line : List Bool)
  | idReq (arm : Arm) (lane : DLane)
  | idRec (arm : Arm) (lane : DLane) (line : List Bool)
  | idReqRetry (arm : Arm) (lane : DLane)
  -- Hornet registers
  | execEnWrite (src : Src) (v : Bool)
  | publish
  | tmaxClr
  | hrnBankLoad
  | hrnBankCheckDone
  | hrnParSwap
  | hrnParCheckDone
  -- Midge and Lacewing
  | mdgSwtrig (c : Conv)
  | mdgTrigger (c : Conv)
  | conversionStart (c : Conv)
  /-- R154, R159: the voltages of the two legs of an analogue input, mV; of an internal channel of Table
  6.1 its value in codes, and 0 -/
  | conversionResult (c : Conv) (p n : Int)
  | mdgDataRead (c : Conv)
  | swapDue (c : Conv)
  | swapStart (c : Conv)
  /-- R165; `trimFail`: the slice just trimmed fell outside its range -/
  | swapEnd (c : Conv) (trimFail : Bool)
  | calStarved (c : Conv)
  | mdgRearm (c : Conv)
  | lcwVisit (slot : Fin 64)
  -- Dragonfly bring-up, eye scan
  | bringup (src : Src) (p : Port)
  | down (src : Src) (p : Port)
  | impGo (src : Src) (p : Port)
  | eqLoad
  | clockDone (p : Port)
  | clockTimeout (p : Port)
  /-- R435: bit i is 1 when phase step i passes -/
  | phaseDone (p : Port) (lane : DLane) (pass : BitVec 64)
  | phaseTimeout (p : Port) (lane : DLane)
  | alignDone (p : Port) (lane : DLane) (slips : Fin 8)
  | alignTimeout (p : Port) (lane : DLane)
  | handshakeDone (p : Port) (lane : DLane)
  | handshakeTimeout (p : Port) (lane : DLane)
  | frameDone (p : Port) (lane : DLane)
  | frameTimeout (p : Port) (lane : DLane)
  /-- R192; `line`: the line bits received since the last command of the lane -/
  | laneLol (p : Port) (lane : DLane) (cause : LolCause) (line : List Bool)
  | ckLoss (p : Port)
  | requalDone (arm : Arm) (lane : DLane)
  | eyeScanStart (p : Port) (lane : DLane)
  | eyeScanDone (p : Port) (lane : DLane) (errors : Nat)
  | eyeStarved (p : Port) (lane : DLane)
  -- Firefly
  | timebaseStep (src : Src)
  | relock (src : Src)
  | pllLock
  | outputRelease
  | rateWrite (v : Word)
  | rateSlew
  /-- R239, R242, R243: the domain, the clock's port identity, and logSyncInterval plus 4 -/
  | syncRx (domB : Bool) (peer : BitVec 80) (interval : Fin 5)
  | syncTimeout (domB : Bool)
  | invA
  | invB
  | txtsArrive
  | txtsHdrRead
  | eventFire (n : Fin 16)
  | evTWrite (n : Fin 16) (v : Word)
  | evEnable (n : Fin 16)
  /-- R248: an edge at a contact, `src` as in Table 9.2: PPS_IN rising or falling, PWM_FLT_N falling -/
  | capture (src : Fin 3)
  | ppsRise
  | ppsFall
  -- Beetle cores: control
  | coreRun (n : Core)
  | coreStop (n : Core)
  | halt (n : Core)
  | resume (n : Core)
  | coreHalted (n : Core)
  | interrupt (n : AnyCore)
  | storeDrain (n : Core)
  | wfiWake (n : AnyCore)
  | evwaitWake (n : Core)
  -- scalar QIS: immediate, jump and branch
  | addk (n : AnyCore) (rd rs1 : GReg) (imm : BitVec 16)
  | ltk (n : AnyCore) (rd rs1 : GReg) (imm : BitVec 16)
  | ltku (n : AnyCore) (rd rs1 : GReg) (imm : BitVec 16)
  | andk (n : AnyCore) (rd rs1 : GReg) (imm : BitVec 16)
  | ork (n : AnyCore) (rd rs1 : GReg) (imm : BitVec 16)
  | xork (n : AnyCore) (rd rs1 : GReg) (imm : BitVec 16)
  | hik (n : AnyCore) (rd rs1 : GReg) (imm : BitVec 16)
  | pcrel (n : AnyCore) (rd : GReg) (imm : BitVec 21)
  | call (n : AnyCore) (rd : GReg) (imm : BitVec 21)
  | jmpr (n : AnyCore) (rd rs1 : GReg) (imm : BitVec 16)
  | brEq (n : AnyCore) (rs1 rs2 : GReg) (off : BitVec 16)
  | brNe (n : AnyCore) (rs1 rs2 : GReg) (off : BitVec 16)
  | brLt (n : AnyCore) (rs1 rs2 : GReg) (off : BitVec 16)
  | brGe (n : AnyCore) (rs1 rs2 : GReg) (off : BitVec 16)
  | brLtu (n : AnyCore) (rs1 rs2 : GReg) (off : BitVec 16)
  | brGeu (n : AnyCore) (rs1 rs2 : GReg) (off : BitVec 16)
  -- loads and stores
  | ldB (n : AnyCore) (rd rs1 : GReg) (imm : BitVec 16)
  | ldBu (n : AnyCore) (rd rs1 : GReg) (imm : BitVec 16)
  | ldH (n : AnyCore) (rd rs1 : GReg) (imm : BitVec 16)
  | ldHu (n : AnyCore) (rd rs1 : GReg) (imm : BitVec 16)
  | ldW (n : AnyCore) (rd rs1 : GReg) (imm : BitVec 16)
  | stB (n : AnyCore) (rs1 rs2 : GReg) (off : BitVec 16)
  | stH (n : AnyCore) (rs1 rs2 : GReg) (off : BitVec 16)
  | stW (n : AnyCore) (rs1 rs2 : GReg) (off : BitVec 16)
  | ldR (n : AnyCore) (rd rs1 : GReg) (imm : BitVec 16)
  | stC (n : AnyCore) (rd rs1 rs2 : GReg)
  -- ALU functions (Table 10.6)
  | add (n : AnyCore) (rd rs1 rs2 : GReg)
  | sub (n : AnyCore) (rd rs1 rs2 : GReg)
  | and (n : AnyCore) (rd rs1 rs2 : GReg)
  | or (n : AnyCore) (rd rs1 rs2 : GReg)
  | xor (n : AnyCore) (rd rs1 rs2 : GReg)
  | shl (n : AnyCore) (rd rs1 rs2 : GReg)
  | shr (n : AnyCore) (rd rs1 rs2 : GReg)
  | sar (n : AnyCore) (rd rs1 rs2 : GReg)
  | shlk (n : AnyCore) (rd rs1 : GReg) (sh : Fin 64)
  | shrk (n : AnyCore) (rd rs1 : GReg) (sh : Fin 64)
  | sark (n : AnyCore) (rd rs1 : GReg) (sh : Fin 64)
  | lt (n : AnyCore) (rd rs1 rs2 : GReg)
  | ltu (n : AnyCore) (rd rs1 rs2 : GReg)
  | min (n : AnyCore) (rd rs1 rs2 : GReg)
  | max (n : AnyCore) (rd rs1 rs2 : GReg)
  | clz (n : AnyCore) (rd rs1 : GReg)
  | adds (n : AnyCore) (rd rs1 rs2 : GReg)
  | subs (n : AnyCore) (rd rs1 rs2 : GReg)
  | mul (n : AnyCore) (rd rs1 rs2 : GReg)
  | mulhs (n : AnyCore) (rd rs1 rs2 : GReg)
  | mulhu (n : AnyCore) (rd rs1 rs2 : GReg)
  | mulq (n : AnyCore) (rd rs1 rs2 : GReg) (sh : Fin 64)
  | sat (n : AnyCore) (rd rs1 : GReg) (sh : Fin 64)
  | abs (n : AnyCore) (rd rs1 : GReg)
  | divs (n : AnyCore) (rd rs1 rs2 : GReg)
  | divu (n : AnyCore) (rd rs1 rs2 : GReg)
  | mods (n : AnyCore) (rd rs1 rs2 : GReg)
  | modu (n : AnyCore) (rd rs1 rs2 : GReg)
  -- system, sweep, block and Hive instructions (Table 10.7)
  | fence (n : AnyCore)
  | ifence (n : AnyCore)
  | retx (n : AnyCore)
  | trap (n : AnyCore) (sh : Fin 64)
  | wfi (n : AnyCore)
  | mfs (n : AnyCore) (rd : GReg) (sh : Fin 64)
  | mts (n : AnyCore) (rs1 : GReg) (sh : Fin 64)
  | signal (n : AnyCore) (rs1 : GReg)
  | brk (n : AnyCore)
  | waitsweep (n : AnyCore) (rd : GReg) (sh : Fin 64)
  | commit (n : AnyCore) (rd : GReg) (sh : Fin 64)
  | tstamp (n : AnyCore) (rd : GReg) (sh : Fin 64)
  /-- one element of a block instruction, as each of the three below (R270) -/
  | bmov (n : AnyCore) (rd rs1 rs2 : GReg)
  | bcrc (n : AnyCore) (rd rs1 rs2 : GReg) (sh : Fin 64)
  | tsrch (n : AnyCore) (rd rs1 rs2 : GReg) (sh : Fin 64)
  /-- R304: `pop` is a QPOP of another core that Hive takes in the same round -/
  | qpush (n : AnyCore) (rd rs1 rs2 : GReg) (pop : Option (AnyCore × GReg × GReg × GReg))
  | qpop (n : AnyCore) (rd rs1 rs2 : GReg)
  | evwait (n : AnyCore) (rd rs1 : GReg)
  | evset (n : AnyCore) (rs1 rs2 : GReg)
  -- vector class (Tables 10.10 and 10.13)
  | vld (e : Engine) (vd : VReg) (sp : Space) (index : Fin 256)
  | vst (e : Engine) (vs1 : VReg) (sp : Space) (index : Fin 256)
  | vmac (e : Engine) (ac : Acc) (vs1 vs2 : VReg) (neg : Bool)
  | vmacl (e : Engine) (ac : Acc) (vs1 vs2 : VReg) (lane : Fin 32) (neg : Bool)
  | vmul (e : Engine) (ac : Acc) (vs1 vs2 : VReg)
  | vext (e : Engine) (vd : VReg) (ac : Acc) (shift : Fin 64)
  | vlda (e : Engine) (ac : Acc) (index : Fin 128)
  | vsta (e : Engine) (ac : Acc) (index : Fin 128)
  | vclra (e : Engine) (ac : Acc)
  | vgs (e : Engine) (vd vs1 : VReg)
  | vnotch (e : Engine) (vd vs1 : VReg) (k : Fin 4) (sa : Fin 32)
  | vmsel (e : Engine) (vd vs1 vs2 : VReg) (g : Fin 8)
  | vperm (e : Engine) (vd vs1 : VReg) (index : Fin 256)
  | vbr (e : Engine) (c : VCond) (vs1 : VReg) (offset : Fin 4096)
  | endVec (e : Engine)
  | vadd (e : Engine) (vd vs1 vs2 : VReg)
  | vsub (e : Engine) (vd vs1 vs2 : VReg)
  | vaddw (e : Engine) (vd vs1 vs2 : VReg)
  | vsubw (e : Engine) (vd vs1 vs2 : VReg)
  | vmin (e : Engine) (vd vs1 vs2 : VReg)
  | vmax (e : Engine) (vd vs1 vs2 : VReg)
  | vabs (e : Engine) (vd vs1 : VReg)
  | vneg (e : Engine) (vd vs1 : VReg)
  | vand (e : Engine) (vd vs1 vs2 : VReg)
  | vor (e : Engine) (vd vs1 vs2 : VReg)
  | vxor (e : Engine) (vd vs1 vs2 : VReg)
  | vsra (e : Engine) (vd vs1 : VReg) (sh : Fin 64)
  | vsll (e : Engine) (vd vs1 : VReg) (sh : Fin 64)
  | vcmplt (e : Engine) (vd vs1 vs2 : VReg)
  | vcmpeq (e : Engine) (vd vs1 vs2 : VReg)
  | vsel (e : Engine) (vd vs1 vs2 : VReg)
  | vmov (e : Engine) (vd vs1 : VReg)
  | vsplat (e : Engine) (vd : VReg) (g : GReg)
  -- cyclic tasks
  | taskDone (t : Fin 16)
  | taskRun (t : Fin 16)
  | taskHold (t : Fin 16)
  | taskStop (t : Fin 16)
  | cycWdg (t : Fin 16)
  -- Hive
  | tagRelease (tag : Fin 32768)
  | hivHev (task : Fin 4096) (flag : Fin 64)
  | queueWr
  | queueRd
  | flush
  | flushDone
  | taskWr
  | taskRd
  | clrf
  | snap
  | init
  | initDone
  | offer (n : Core)
  | hivTake (n : Core)
  | yield (n : Core)
  | hivGwWrite (g : Fin 16) (v : Word)
  -- Moth and Termite
  | recordDone
  | trig
  | arm
  | lossClr
  | mothModeChange (en mode : Bool)
  | trmStart (e : Fin 2)
  | trmResume (e : Fin 2)
  | trmFinish (e : Fin 2)
  | trmAbort (e : Fin 2)
  | outFull (e : Fin 2)
  | trmJobEnd (e : Fin 2)
  -- twin
  | beatInstant
  /-- R336: the line bits received on T.D0 to T.D3 since the last command of the lane, up to the end of a
beat frame; the arrival of its header against the departure of the own one, ns; and the moves of the
lanes' phase trackers, as in UPSTREAM_FRAME -/
  | beatRx (lines : List (List Bool)) (arrivalNs : Int) (tracks : List (Fin 3))
  | twinLoss
  | takeover
  | handover
  | handoverSwitch
  | release
  | actInChange (low : Bool)
  | twnConflict
  | roleLineRelease
  | soloTimeout
  | autoReturn
  -- Mantis
  | safeInChange (n : Fin 16) (high : Bool)
  | demand (f : Fin 8)
  | discrepancy (f : Fin 8)
  | testPulseStart (b : Bool)
  | testPulseEnd (b : Bool)
  | resetFunction (f : Fin 8)
  | mtsReset
  | resetDecision
  | trip
  | unlock (key : BitVec 16)
  | mtsConfirm (v : Word)
  | readbackFault (output : Fin 4)
  | mantisInternalFault
  | bsRun
  | bsStop
  | bsdemWrite (v : Word)
  | bsWindow
  /-- R365, R413: BS takes the frame of a full receive slot -/
  | safetyMsgRx (port : Bool) (slot : Fin 8)
  | smTimeout
  | statusMsgSend
  | mtsInj (v : Word)
  -- Cicada
  | ccdSwrep (v : Word)
  | rctWrite (n : Fin 16) (v : Word)
  | statClear (hi : Bool) (v : Word)
  | ccdLogRead
  | ccdInjArm (v : Word)
  -- module
  | presentChange (low : Bool)
  | powerGood
  | powerFail
  | vinExcursion (mv ma : Fin 65536)
  | latchTrip
  | bankTestDone (bank : Fin 8) (failed : Bool)
  | ready
  | imageLoadDone
  | hostGo
  | confirm
  | confirmTimeout
  | reboot
  | flashErase
  | flashProg
  /-- R395; `verifyFail`: the read-back differed -/
  | flashDone (verifyFail : Bool)
  | tempExcursion (quarterDeg : BitVec 12)
  /-- R401, R352; `cell`: VBAK in mV, and whether it is measured within the first 8 h of run time -/
  | bakLow (pct : Fin 101) (cell : Fin 65536 × Bool)
  -- host interface
  /-- R403: the write into one ECC word of the window -/
  | hostWindowWrite (off : BitVec 24) (be : BitVec 8) (data : BitVec 64)
  | dmaStart (c : Fin 8)
  | dmaAbort (c : Fin 8)
  | descriptorEnd (c : Fin 8)
  /-- R406: the host's write of its configuration space; Bus Master Enable clears when `cfg.bme` is
  false -/
  | bmeClear (cfg : HostCfg)
  | flr
  /-- R406; `err`: completion with error status or a poisoned TLP -/
  | pcieCompletion (tag : Fin 1024) (err : Bool) (data : List Byte)
  | completionTimeout (tag : Fin 1024)
  | msixSend (v : Fin 64)
  | doorbell (bits : Byte)
  | fwint (v : Fin 64)
  /-- R410: the frame without FCS, and whether its FCS passed -/
  | ethRxFrame (port : Bool) (frame : List Byte)
  | ethTxEntry (port : Bool)
  | safetyFrameTx (port : Bool)
  | ethLink (port : Bool)
  -- auxiliary PWM
  | pwmPeriodStart (ch : Fin 12)
  | pwmCompare (ch : Fin 12)
  /-- R417: `low`: PWM_FLT_N has been low for the filter time; else it has gone high -/
  | pwmFlt (low : Bool)
  | bootRefresh (ch : Fin 12)
  | blockLock (port : Bool)
  | factoryTestMode
  | illegal (n : AnyCore)
  | bootstrapRefreshEnd (ch : Fin 12)
  /-- R217: a reflex word that fails RCRC or has a KIND reserved in the upstream direction -/
  | rcrcErr (arm : Arm) (lane : DLane) (word : Word)
  /-- R219: the line bits of gap units, up to the end of the last of them -/
  | gapUnit (arm : Arm) (lane : DLane) (line : List Bool)
  deriving DecidableEq, Repr

end Sys2Proof
end

