-- ==== Sys2Proof/Decode.lean ====
section
/-!
DEFINITION. The command a word spells by the table's bits: none, since no row of
spec/opcode_table.json gives bits (every row's `fields` is empty). Beside it, the word of a Beetle
core's program read by Tables 10.4 to 10.7 (R256, R257).
-/

namespace Sys2Proof

/-- The command that `nbits` bits spell: none, as the table gives no row any bits. -/
def decodeTableWord (nbits w : Nat) : Option Instr :=
  match nbits, w with
  | _, _ => none

/-! ### The fields of an instruction word (Table 10.4) -/

/-- `n` bits of a word from bit `lo` on. -/
def encBits (w : Word) (lo n : Nat) : Nat := w.toNat / 2 ^ lo % 2 ^ n
def encReg (w : Word) (lo : Nat) : GReg := Fin.ofNat 32 (encBits w lo 5)
def encOp (w : Word) : Nat := encBits w 26 6
def encRd (w : Word) : GReg := encReg w 21
def encRs1 (w : Word) : GReg := encReg w 16
/-- rs2 of format A; format C has it where the others have rd. -/
def encRs2 (w : Word) : GReg := encReg w 11
def encSh (w : Word) : Fin 64 := Fin.ofNat 64 (encBits w 5 6)
def encFn (w : Word) : Nat := encBits w 0 5
def encImm16 (w : Word) : BitVec 16 := w.extractLsb' 0 16
def encImm21 (w : Word) : BitVec 21 := w.extractLsb' 0 21

/-- The fields of format A that hold something: rd, rs1, rs2 and SH, each true when its field is not 0.
An instruction leaves the fields it does not use at 0 (R256). -/
def only (w : Word) (rd rs1 rs2 sh : Bool) (i : Instr) : Option Instr :=
  if (rd || encRd w == 0) && (rs1 || encRs1 w == 0) && (rs2 || encRs2 w == 0) && (sh || encSh w == 0) then
    some i
  else none

/-! ### The functions of each major opcode -/

/-- OP 0x00 (Table 10.6); the limits of SH are checked as the instruction executes. -/
def aluDecode (n : AnyCore) (w : Word) : Option Instr :=
  let rd := encRd w
  let a := encRs1 w
  let b := encRs2 w
  let sh := encSh w
  match encFn w with
  | 0x00 => only w true true true false (.add n rd a b)
  | 0x01 => only w true true true false (.sub n rd a b)
  | 0x02 => only w true true true false (.and n rd a b)
  | 0x03 => only w true true true false (.or n rd a b)
  | 0x04 => only w true true true false (.xor n rd a b)
  | 0x05 => only w true true true false (.shl n rd a b)
  | 0x06 => only w true true true false (.shr n rd a b)
  | 0x07 => only w true true true false (.sar n rd a b)
  | 0x08 => only w true true false true (.shlk n rd a sh)
  | 0x09 => only w true true false true (.shrk n rd a sh)
  | 0x0A => only w true true false true (.sark n rd a sh)
  | 0x0B => only w true true true false (.lt n rd a b)
  | 0x0C => only w true true true false (.ltu n rd a b)
  | 0x0D => only w true true true false (.min n rd a b)
  | 0x0E => only w true true true false (.max n rd a b)
  | 0x0F => only w true true false false (.clz n rd a)
  | 0x10 => only w true true true false (.adds n rd a b)
  | 0x11 => only w true true true false (.subs n rd a b)
  | 0x12 => only w true true true false (.mul n rd a b)
  | 0x13 => only w true true true false (.mulhs n rd a b)
  | 0x14 => only w true true true false (.mulhu n rd a b)
  | 0x15 => only w true true true true (.mulq n rd a b sh)
  | 0x16 => only w true true false true (.sat n rd a sh)
  | 0x17 => only w true true false false (.abs n rd a)
  | 0x18 => only w true true true false (.divs n rd a b)
  | 0x19 => only w true true true false (.divu n rd a b)
  | 0x1A => only w true true true false (.mods n rd a b)
  | 0x1B => only w true true true false (.modu n rd a b)
  | _ => none

/-- OP 0x1C (Table 10.7). -/
def sysDecode (n : AnyCore) (w : Word) : Option Instr :=
  match encFn w with
  | 0x00 => only w false false false false (.fence n)
  | 0x01 => only w false false false false (.ifence n)
  | 0x02 => only w false false false false (.retx n)
  | 0x03 => only w false false false true (.trap n (encSh w))
  | 0x04 => only w false false false false (.wfi n)
  | 0x05 => only w true false false true (.mfs n (encRd w) (encSh w))
  | 0x06 => only w false true false true (.mts n (encRs1 w) (encSh w))
  | 0x07 => only w false true false false (.signal n (encRs1 w))
  | 0x08 => only w false false false false (.brk n)
  | _ => none

/-- OP 0x1D (Table 10.7). -/
def sweepDecode (n : AnyCore) (w : Word) : Option Instr :=
  match encFn w with
  | 0x00 => only w true false false true (.waitsweep n (encRd w) (encSh w))
  | 0x01 => only w true false false true (.commit n (encRd w) (encSh w))
  | 0x02 => only w true false false true (.tstamp n (encRd w) (encSh w))
  | _ => none

/-- OP 0x1E (Table 10.7). -/
def blockDecode (n : AnyCore) (w : Word) : Option Instr :=
  match encFn w with
  | 0x00 => only w true true true false (.bmov n (encRd w) (encRs1 w) (encRs2 w))
  | 0x01 => only w true true true true (.bcrc n (encRd w) (encRs1 w) (encRs2 w) (encSh w))
  | 0x02 => only w true true true true (.tsrch n (encRd w) (encRs1 w) (encRs2 w) (encSh w))
  | _ => none

/-- OP 0x1F (Table 10.7); with which other core's QPOP a QPUSH shares its round is no part of a word. -/
def hiveDecode (n : AnyCore) (w : Word) : Option Instr :=
  match encFn w with
  | 0x00 => only w true true true false (.qpush n (encRd w) (encRs1 w) (encRs2 w) none)
  | 0x01 => only w true true true false (.qpop n (encRd w) (encRs1 w) (encRs2 w))
  | 0x02 => only w true true false false (.evwait n (encRd w) (encRs1 w))
  | 0x03 => only w false true true false (.evset n (encRs1 w) (encRs2 w))
  | _ => none

/-- The scalar instruction a word spells for core `n` (Table 10.5); none for an encoding that is
reserved, that leaves a field it does not use other than 0, or of the vector class: there the core
raises ILLEGAL (R256, R278). -/
def scalarDecode (n : AnyCore) (w : Word) : Option Instr :=
  let d := encRd w
  let a := encRs1 w
  let k := encImm16 w
  match encOp w with
  | 0x00 => aluDecode n w
  | 0x01 => some (.addk n d a k)
  | 0x02 => some (.ltk n d a k)
  | 0x03 => some (.ltku n d a k)
  | 0x04 => some (.andk n d a k)
  | 0x05 => some (.ork n d a k)
  | 0x06 => some (.xork n d a k)
  | 0x08 => some (.hik n d a k)
  | 0x09 => some (.pcrel n d (encImm21 w))
  | 0x0A => some (.call n d (encImm21 w))
  | 0x0B => some (.jmpr n d a k)
  | 0x0C => some (.brEq n a d k)
  | 0x0D => some (.brNe n a d k)
  | 0x0E => some (.brLt n a d k)
  | 0x0F => some (.brGe n a d k)
  | 0x10 => some (.brLtu n a d k)
  | 0x11 => some (.brGeu n a d k)
  | 0x12 => some (.ldB n d a k)
  | 0x13 => some (.ldBu n d a k)
  | 0x14 => some (.ldH n d a k)
  | 0x15 => some (.ldHu n d a k)
  | 0x16 => some (.ldW n d a k)
  | 0x17 => some (.stB n a d k)
  | 0x18 => some (.stH n a d k)
  | 0x19 => some (.stW n a d k)
  | 0x1A => some (.ldR n d a k)
  | 0x1B => if encFn w = 0 then only w true true true false (.stC n d a (encRs2 w)) else none
  | 0x1C => sysDecode n w
  | 0x1D => sweepDecode n w
  | 0x1E => blockDecode n w
  | 0x1F => hiveDecode n w
  | _ => none

end Sys2Proof
end

