-- ==== Sys2Proof/Machine/Crc.lean ====
section
/-!
DEFINITION. The cyclic redundancy checks of the device: the reflected CRC-32 of Table 7.1, and the
unreflected, most significant bit first checks of Table 8.9 and Table 15.2.
-/

namespace Sys2Proof.Machine

/-- The bits of a number, the most significant of `n` first. -/
def bitsMsb : Nat → Nat → List Bool
  | 0, _ => []
  | n + 1, x => x.testBit n :: bitsMsb n x

/-- The bits of bytes in order, each most significant bit first. -/
def bitsOfBytes (l : List Byte) : List Bool := l.flatMap (fun b => bitsMsb 8 b.toNat)

/-- One bit of an unreflected CRC. -/
def crcBit {w : Nat} (poly c : BitVec w) (b : Bool) : BitVec w :=
  if xor c.msb b then (c <<< 1) ^^^ poly else c <<< 1

/-- An unreflected CRC over bits in order, from a register value on. -/
def crcMsb {w : Nat} (poly init : BitVec w) (bits : List Bool) : BitVec w :=
  bits.foldl (crcBit poly) init

/-- One bit of the reflected CRC-32. -/
def crc32Bit (c : Word) : Nat → Word
  | 0 => c
  | n + 1 => crc32Bit (if c.getLsbD 0 then (c >>> 1) ^^^ 0xEDB88320 else c >>> 1) n

/-- One byte of the reflected CRC-32, without initial or final inversion (R272, SH = 0). -/
def crc32Byte (c : Word) (b : Byte) : Word := crc32Bit (c ^^^ b.setWidth 32) 8

/-- The CRC-32 of Table 7.1. -/
def crc32 (l : List Byte) : Word := ~~~(l.foldl crc32Byte 0xFFFFFFFF)

/-- One byte of the unreflected CRC with HCRC's polynomial (R272, SH = 1). -/
def crcHByte (c : Word) (b : Byte) : Word := crcMsb 0x1EDC6F41 c (bitsMsb 8 b.toNat)

/-- HCRC and FCRC over bits (Table 8.9). -/
def hcrc (bits : List Bool) : Word := ~~~(crcMsb (0x1EDC6F41 : Word) 0xFFFFFFFF bits)

/-- SCRC and GCRC over bits (Table 8.9). -/
def crc24 (bits : List Bool) : BitVec 24 := crcMsb (0x5D6DCB : BitVec 24) 0xFEDCBA bits

/-- RCRC over bits (Table 8.9). -/
def rcrc (bits : List Bool) : Byte := crcMsb (0x2F : Byte) 0xFF bits

/-- SCRC of a safety message, over its bytes 0 to 11 (R364). -/
def smCrc (l : List Byte) : Word := ~~~(crcMsb (0xF4ACFB13 : Word) 0xFFFFFFFF (bitsOfBytes l))

end Sys2Proof.Machine
end

