-- ==== Sys2Proof/Config.lean ====
section
/-!
DEFINITION. The free values: what the spec leaves open about a value while it goes on with the
step. Each is an opaque function with no body, applied to the counter `State.free` (which the step
then advances) or to operands: no statement can rest on what it is.
-/

namespace Sys2Proof

/-- Which of the free item slots a QPUSH takes: an index into them (R301 says only "a free slot"). -/
opaque Config.freeSlot : Nat → Nat
/-- Which of the unused service tags a QPOP gives: an index into them (R302). -/
opaque Config.freeTag : Nat → Nat

/-- Which bit an impairment or a corrupted slot inverts ("one bit", Table 7.4). -/
opaque Config.freeBit : Nat → Nat
/-- K_TX, the factory-trimmed transmit-to-receive offset, in 1/16 ns (R104 gives it no value). -/
opaque Config.kTx : Int
/-- How long a Hornet run takes, ns (R125: it varies with supply and temperature). -/
opaque Config.freeRunNs : Nat → Nat
/-- What a vector register that a policy hook is not given holds: sweep's draw, and run, register and lane
(R80, R81, R279). -/
opaque Config.freeVec : Nat → Nat → Word
/-- What a 32-bit field shows of a voltage that it cannot hold (R68, R81, R89). -/
opaque Config.wideWord : Int → Word
/-- Which word leaves a full instruction cache: an index into those it holds (Table 10.1 gives the size alone). -/
opaque Config.freeEvict : Nat → Nat
/-- The twin partner's UNIT number: R334 compares it with the own one, and no field of a beat carries
it (Table 14.2). -/
opaque Config.partnerUnit : Bool
/-- What Termite's match search finds for a block, from LEVEL, the window before it (newest byte first)
and the block: distance 0 with a byte, or a distance with a length (R326 bounds the search, and does not
fix each choice it makes). -/
opaque Config.deflateSearch : Nat → List Byte → List Byte → List (Nat × Nat)
/-- The code lengths Termite gives a dynamic block, literals and distances, and the block's header after
its three bits: R326 asks for the shortest block and does not fix how the codes are made. -/
opaque Config.deflateCodes : Nat → List Byte → List Byte → List Nat × List Nat × List Bool
/-- How much of a record a Termite job has read when Moth's EN or MODE changes (R319): draw. -/
opaque Config.freeRead : Nat → Nat
/-- A byte whose value is undefined: a flash sector whose programming has failed, a poisoned word that
a cyclic transfer copies, or the rest of an aborted transfer's destination (R406): draw and offset. -/
opaque Config.freeByte : Nat → Nat → Byte

/-- How many entries of the cell table a running refresh has copied: draw (R88 gives the copy no pace). -/
opaque Config.freeCopied : Nat → Nat

/-- What a byte of a main-SRAM bank that is under test or has failed reads as: address (R23: such a bank
is not used, and the spec gives a read of it no value). -/
opaque Config.isolatedByte : Nat → Byte

/-- The safety firmware image that module management loads into BS's memory, by word (R362 gives its
content no value). -/
opaque Config.bsImage : Nat → Word

/-- Where BS addresses its status messages (R366 names no destination). -/
opaque Config.smDest : BitVec 48

end Sys2Proof
end

