-- ==== Sys2Proof/Machine/RegMap.lean ====
section
/-!
DEFINITION. The registers of BAR0: one descriptor a register or window (offset, instances, reset
value, and the bits of each access code of R13), and a name for every register and every field of
the spec's block tables and field tables. The offsets follow R27 and the register section of each
chapter (R3, R54, R91, R118, R153, R175, R176, R203, R232, R251, R281, R298, R314, R331, R349,
R378, R379, R401, R420 and the tables of 01_architecture.md). Bits that stand in no mask are
read-only or reserved: software never changes them (R9, R13).
-/

namespace Sys2Proof.Machine

/-! Register names: the offset of the first instance. -/

abbrev R.GCR_ID : Nat := 0x0
abbrev R.GCR_SVC : Nat := 0x4
abbrev R.GCR_UNIT_FAIL : Nat := 0x8
abbrev R.GCR_BANK : Nat := 0xC
abbrev R.GCR_SCRUB : Nat := 0x10
abbrev R.GCR_ECC_CE : Nat := 0x14
abbrev R.GCR_ECC_UE : Nat := 0x18
abbrev R.FFY_CTL : Nat := 0x10000
abbrev R.FFY_STAT : Nat := 0x10004
abbrev R.FFY_NOW_LO : Nat := 0x10008
abbrev R.FFY_NOW_HI : Nat := 0x1000C
abbrev R.FFY_RATE : Nat := 0x10010
abbrev R.FFY_RATE_ACT : Nat := 0x10014
abbrev R.FFY_STEP_LO : Nat := 0x10018
abbrev R.FFY_STEP_HI : Nat := 0x1001C
abbrev R.FFY_PTP : Nat := 0x10020
abbrev R.FFY_DOM : Nat := 0x10024
abbrev R.FFY_TXTS_HDR : Nat := 0x10028
abbrev R.FFY_TXTS_LO : Nat := 0x1002C
abbrev R.FFY_TXTS_HI : Nat := 0x10030
abbrev R.FFY_EV_T : Nat := 0x10100
abbrev R.FFY_EV_PER : Nat := 0x10104
abbrev R.FFY_EV_CTL : Nat := 0x10108
abbrev R.FFY_CAP_CTL : Nat := 0x10200
abbrev R.FFY_CAP_LO : Nat := 0x10204
abbrev R.FFY_CAP_HI : Nat := 0x10208
abbrev R.CRK_CTL : Nat := 0x20000
abbrev R.CRK_PERIOD : Nat := 0x20004
abbrev R.CRK_EPOCH_LO : Nat := 0x20008
abbrev R.CRK_EPOCH_HI : Nat := 0x2000C
abbrev R.CRK_SWEEP : Nat := 0x20010
abbrev R.CRK_WIN : Nat := 0x20014
abbrev R.CRK_STATE : Nat := 0x20018
abbrev R.CRK_CMD : Nat := 0x2001C
abbrev R.CRK_CMD_STAT : Nat := 0x20020
abbrev R.CRK_LATE : Nat := 0x20024
abbrev R.CRK_ARMS : Nat := 0x20028
abbrev R.CRK_BAND : Nat := 0x2002C
abbrev R.CRK_FLY : Nat := 0x20030
abbrev R.CRK_VBASE : Nat := 0x20034
abbrev R.CRK_DBAT_LO : Nat := 0x20038
abbrev R.CRK_DBAT_HI : Nat := 0x2003C
abbrev R.SWM_CTL : Nat := 0x40000
abbrev R.SWM_CFG : Nat := 0x40004
abbrev R.SWM_SEL : Nat := 0x40008
abbrev R.SWM_DIR : Nat := 0x4000C
abbrev R.SWM_PRED : Nat := 0x40010
abbrev R.SWM_EDGE : Nat := 0x40014
abbrev R.SWM_PRE : Nat := 0x40018
abbrev R.SWM_STAT : Nat := 0x4001C
abbrev R.SWM_COUNT : Nat := 0x40020
abbrev R.SWM_FRAC : Nat := 0x40024
abbrev R.SWM_VREF : Nat := 0x40028
abbrev R.SWM_IARM : Nat := 0x4002C
abbrev R.SWM_VERR : Nat := 0x40030
abbrev R.SWM_EVT : Nat := 0x40034
abbrev R.SWM_TBL : Nat := 0x40038
abbrev R.SWM_HOOK : Nat := 0x4003C
abbrev R.SWM_TEST : Nat := 0x40040
abbrev R.SWM_HOLD : Nat := 0x58000
abbrev R.SWM_CAL : Nat := 0x58004
abbrev R.SWM_CAL_STAT : Nat := 0x58008
abbrev R.SWM_RFX : Nat := 0x58010
abbrev R.SWM_FESC : Nat := 0x58014
abbrev R.SWM_ECNT : Nat := 0x58100
abbrev R.SWM_RCNT : Nat := 0x58104
abbrev R.SWM_CFTHR : Nat := 0x58108
abbrev R.SWM_FTIME : Nat := 0x5810C
abbrev R.SWM_EDGES : Nat := 0x58110
abbrev R.SWM_CF : Nat := 0x60000
abbrev R.HRN_CTL : Nat := 0x80000
abbrev R.HRN_BANK : Nat := 0x80004
abbrev R.HRN_PAR : Nat := 0x80008
abbrev R.HRN_STAT : Nat := 0x8000C
abbrev R.HRN_SAT_LANES : Nat := 0x80010
abbrev R.HRN_GOV_LANES : Nat := 0x80014
abbrev R.HRN_TIME : Nat := 0x80018
abbrev R.HRN_CNT : Nat := 0x8001C
abbrev R.HRN_PVER : Nat := 0x80020
abbrev R.HRN_PTAG : Nat := 0x80024
abbrev R.HRN_SUP : Nat := 0x80028
abbrev R.HRN_REGION : Nat := 0x80030
abbrev R.HRN_IN : Nat := 0x81000
abbrev R.HRN_STAGE : Nat := 0x81800
abbrev R.HRN_OUT : Nat := 0x82000
abbrev R.HRN_ST : Nat := 0x84000
abbrev R.HRN_BANK0 : Nat := 0x88000
abbrev R.HRN_BANK1 : Nat := 0x8C000
abbrev R.HRN_PAGE0 : Nat := 0x90000
abbrev R.HRN_PAGE1 : Nat := 0x98000
abbrev R.MDG_CTL : Nat := 0xA0000
abbrev R.MDG_STAT : Nat := 0xA0004
abbrev R.MDG_SWTRIG : Nat := 0xA0008
abbrev R.MDG_PLAUS : Nat := 0xA000C
abbrev R.MDG_CALINT : Nat := 0xA0010
abbrev R.MDG_REARM : Nat := 0xA0014
abbrev R.MDG_CFG : Nat := 0xA0100
abbrev R.MDG_DLY : Nat := 0xA0104
abbrev R.MDG_SEQ : Nat := 0xA0108
abbrev R.MDG_DATA : Nat := 0xA010C
abbrev R.MDG_CNT : Nat := 0xA0110
abbrev R.MDG_CSTAT : Nat := 0xA0114
abbrev R.MDG_STAMP : Nat := 0xA0118
abbrev R.LCW_CTL : Nat := 0xB0000
abbrev R.LCW_STAT : Nat := 0xB0004
abbrev R.LCW_OVR0 : Nat := 0xB0008
abbrev R.LCW_OVR1 : Nat := 0xB000C
abbrev R.LCW_VALID0 : Nat := 0xB0010
abbrev R.LCW_VALID1 : Nat := 0xB0014
abbrev R.LCW_CFG : Nat := 0xB0018
abbrev R.LCW_SRC : Nat := 0xB0100
abbrev R.LCW_OFS : Nat := 0xB0104
abbrev R.LCW_GAIN : Nat := 0xB0108
abbrev R.LCW_OUT : Nat := 0xB010C
abbrev R.DFY_PCTL : Nat := 0xC0000
abbrev R.DFY_PSTAT : Nat := 0xC0004
abbrev R.DFY_IMP : Nat := 0xC0008
abbrev R.DFY_IMP_AT : Nat := 0xC000C
abbrev R.DFY_LSTAT : Nat := 0xC0100
abbrev R.DFY_LERR : Nat := 0xC0104
abbrev R.DFY_LPH : Nat := 0xC0108
abbrev R.DFY_ESCTL : Nat := 0xC010C
abbrev R.DFY_ESERR : Nat := 0xC0110
abbrev R.DFY_ESBITS : Nat := 0xC0114
abbrev R.DFY_FCFG : Nat := 0xC0400
abbrev R.DFY_UPST : Nat := 0xC0404
abbrev R.DFY_FSTAT : Nat := 0xC0408
abbrev R.DFY_FERR : Nat := 0xC0500
abbrev R.DFY_FERR2 : Nat := 0xC0504
abbrev R.DFY_RFXERR : Nat := 0xC0508
abbrev R.DFY_CREDIT : Nat := 0xC050C
abbrev R.DFY_NODE : Nat := 0xC0510
abbrev R.DFY_EQ_CTL : Nat := 0xE0000
abbrev R.DFY_EQ_ADDR : Nat := 0xE0004
abbrev R.DFY_EQ_STAT : Nat := 0xE0008
abbrev R.DFY_BUCFG : Nat := 0xE000C
abbrev R.HIV_CTL : Nat := 0x100000
abbrev R.HIV_STAT : Nat := 0x100004
abbrev R.HIV_ERRCNT : Nat := 0x100008
abbrev R.HIV_STRAND : Nat := 0x10000C
abbrev R.HIV_DONE : Nat := 0x100010
abbrev R.HIV_HEV : Nat := 0x100014
abbrev R.HIV_QSEL : Nat := 0x100020
abbrev R.HIV_QCFG : Nat := 0x100024
abbrev R.HIV_QCMD : Nat := 0x100028
abbrev R.HIV_QDEPTH : Nat := 0x10002C
abbrev R.HIV_TSEL : Nat := 0x100030
abbrev R.HIV_TCFG : Nat := 0x100034
abbrev R.HIV_TMASK_LO : Nat := 0x100038
abbrev R.HIV_TMASK_HI : Nat := 0x10003C
abbrev R.HIV_TFLAG_LO : Nat := 0x100040
abbrev R.HIV_TFLAG_HI : Nat := 0x100044
abbrev R.HIV_TCMD : Nat := 0x100048
abbrev R.HIV_AUDIT : Nat := 0x100050
abbrev R.HIV_AUD : Nat := 0x100054
abbrev R.HIV_GW : Nat := 0x100080
abbrev R.HIV_TAKE : Nat := 0x100100
abbrev R.HIV_CUR : Nat := 0x100104
abbrev R.HIV_YIELD : Nat := 0x100108
abbrev R.HIV_TAKE_SELF : Nat := 0x100180
abbrev R.HIV_CUR_SELF : Nat := 0x100184
abbrev R.HIV_YIELD_SELF : Nat := 0x100188
abbrev R.MTH_CTL : Nat := 0x120000
abbrev R.MTH_STAT : Nat := 0x120004
abbrev R.MTH_TSRC : Nat := 0x120008
abbrev R.MTH_PRE : Nat := 0x12000C
abbrev R.MTH_RED : Nat := 0x120010
abbrev R.MTH_TRIG : Nat := 0x120014
abbrev R.MTH_THIT : Nat := 0x120018
abbrev R.MTH_HEAD : Nat := 0x12001C
abbrev R.MTH_LOSS : Nat := 0x120020
abbrev R.MTH_TAG : Nat := 0x128000
abbrev R.TRM_DESC : Nat := 0x130000
abbrev R.TRM_CMD : Nat := 0x130004
abbrev R.TRM_STAT : Nat := 0x130008
abbrev R.TRM_IN : Nat := 0x13000C
abbrev R.TRM_OUT : Nat := 0x130010
abbrev R.TWN_CTL : Nat := 0x140000
abbrev R.TWN_CFG : Nat := 0x140004
abbrev R.TWN_STAT : Nat := 0x140008
abbrev R.TWN_SIG : Nat := 0x14000C
abbrev R.TWN_PSIG : Nat := 0x140010
abbrev R.TWN_TOFS : Nat := 0x140014
abbrev R.TWN_CNT : Nat := 0x140018
abbrev R.TWN_REC : Nat := 0x14001C
abbrev R.TWN_HO : Nat := 0x140020
abbrev R.TWN_BULK_OFS : Nat := 0x140024
abbrev R.TWN_BULK_LEN : Nat := 0x140028
abbrev R.TWN_RET : Nat := 0x14002C
abbrev R.MTS_STAT : Nat := 0x150000
abbrev R.MTS_FUNC : Nat := 0x150004
abbrev R.MTS_IN : Nat := 0x150008
abbrev R.MTS_CAUSE : Nat := 0x15000C
abbrev R.MTS_CMD : Nat := 0x150010
abbrev R.MTS_CHK : Nat := 0x150014
abbrev R.MTS_CONFIRM : Nat := 0x150018
abbrev R.MTS_SMSTAT : Nat := 0x15001C
abbrev R.MTS_BS : Nat := 0x150020
abbrev R.MTS_BSDEM : Nat := 0x150024
abbrev R.MTS_INJ : Nat := 0x150028
abbrev R.MTS_PARAM : Nat := 0x151000
abbrev R.MTS_BSMEM : Nat := 0x158000
abbrev R.CCD_CTL : Nat := 0x160000
abbrev R.CCD_SWREP : Nat := 0x160004
abbrev R.CCD_STAT0 : Nat := 0x160008
abbrev R.CCD_STAT1 : Nat := 0x16000C
abbrev R.CCD_SUM : Nat := 0x160010
abbrev R.CCD_LOGHEAD : Nat := 0x160014
abbrev R.CCD_LOGTOT : Nat := 0x160018
abbrev R.CCD_LOGOVW : Nat := 0x16001C
abbrev R.CCD_SUPP : Nat := 0x160020
abbrev R.CCD_LIDX : Nat := 0x160024
abbrev R.CCD_LOG0 : Nat := 0x160028
abbrev R.CCD_LOG1 : Nat := 0x16002C
abbrev R.CCD_LOG2 : Nat := 0x160030
abbrev R.CCD_LOG3 : Nat := 0x160034
abbrev R.CCD_INJ : Nat := 0x160038
abbrev R.CCD_RCT : Nat := 0x160100
abbrev R.BTL_CTL : Nat := 0x170000
abbrev R.BTL_HALT : Nat := 0x170004
abbrev R.BTL_STAT : Nat := 0x170008
abbrev R.BTL_BOOT : Nat := 0x170100
abbrev R.BTL_PC : Nat := 0x170104
abbrev R.BTL_CAUSE : Nat := 0x170108
abbrev R.BTL_EPC : Nat := 0x17010C
abbrev R.BTL_GSEL : Nat := 0x170110
abbrev R.BTL_GDATA : Nat := 0x170114
abbrev R.BTL_STALL : Nat := 0x170118
abbrev R.BTL_TCFG : Nat := 0x171000
abbrev R.BTL_TPER : Nat := 0x171004
abbrev R.BTL_TPH : Nat := 0x171008
abbrev R.BTL_TIMG : Nat := 0x17100C
abbrev R.BTL_TCMD : Nat := 0x171010
abbrev R.BTL_TSTAT : Nat := 0x171014
abbrev R.BTL_TCNT : Nat := 0x171018
abbrev R.BTL_THIV : Nat := 0x17101C
abbrev R.HST_STAT : Nat := 0x180000
abbrev R.HST_WIN : Nat := 0x180004
abbrev R.HST_DOORBELL : Nat := 0x180008
abbrev R.HST_FWINT : Nat := 0x18000C
abbrev R.HST_TICK : Nat := 0x180010
abbrev R.HST_DDESC : Nat := 0x180100
abbrev R.HST_DCMD : Nat := 0x180104
abbrev R.HST_DSTAT : Nat := 0x180108
abbrev R.HST_MSIX : Nat := 0x188000
abbrev R.HST_PBA : Nat := 0x189000
abbrev R.ETH_CTL : Nat := 0x190000
abbrev R.ETH_MAC_LO : Nat := 0x190004
abbrev R.ETH_MAC_HI : Nat := 0x190008
abbrev R.ETH_RXBASE : Nat := 0x19000C
abbrev R.ETH_RXPTR : Nat := 0x190010
abbrev R.ETH_TXBASE : Nat := 0x190014
abbrev R.ETH_TXPTR : Nat := 0x190018
abbrev R.ETH_CNT : Nat := 0x19001C
abbrev R.ETH_SAFE : Nat := 0x190020
abbrev R.ETH_HEAD : Nat := 0x190024
abbrev R.PWM_CTL : Nat := 0x1A0000
abbrev R.PWM_FLT : Nat := 0x1A0004
abbrev R.PWM_BOOT : Nat := 0x1A0008
abbrev R.PWM_STAT : Nat := 0x1A000C
abbrev R.PWM_PER : Nat := 0x1A0100
abbrev R.PWM_DUTY : Nat := 0x1A0104
abbrev R.PWM_PH : Nat := 0x1A0108
abbrev R.PWM_CFG : Nat := 0x1A010C
abbrev R.MOD_CTL : Nat := 0x1B0000
abbrev R.MOD_STAT : Nat := 0x1B0004
abbrev R.MOD_BOOT : Nat := 0x1B0008
abbrev R.MOD_COMPAT : Nat := 0x1B000C
abbrev R.MOD_IMG : Nat := 0x1B0010
abbrev R.MOD_TAG : Nat := 0x1B0014
abbrev R.MOD_TAG_ALT : Nat := 0x1B0018
abbrev R.MOD_PWR : Nat := 0x1B001C
abbrev R.MOD_BAK : Nat := 0x1B0020
abbrev R.MOD_TEMP : Nat := 0x1B0024
abbrev R.MOD_OUTAGE : Nat := 0x1B0028
abbrev R.MOD_FSEC : Nat := 0x1B002C
abbrev R.MOD_FSRC : Nat := 0x1B0030
abbrev R.MOD_FCMD : Nat := 0x1B0034

/-! Field names: `⟨offset, lowest bit, width⟩` of the first instance. -/

abbrev F.GCR_ID_PART : Fld := ⟨0x0, 12, 20⟩
abbrev F.GCR_ID_REV_MAJ : Fld := ⟨0x0, 8, 4⟩
abbrev F.GCR_ID_REV_MIN : Fld := ⟨0x0, 0, 8⟩
abbrev F.GCR_SVC_MGMT : Fld := ⟨0x4, 0, 1⟩
abbrev F.GCR_SVC_ARM_OK : Fld := ⟨0x4, 1, 6⟩
abbrev F.GCR_SVC_TWIN_OK : Fld := ⟨0x4, 7, 1⟩
abbrev F.GCR_UNIT_FAIL_FFY : Fld := ⟨0x8, 0, 1⟩
abbrev F.GCR_UNIT_FAIL_CRK : Fld := ⟨0x8, 1, 1⟩
abbrev F.GCR_UNIT_FAIL_LCW : Fld := ⟨0x8, 2, 1⟩
abbrev F.GCR_UNIT_FAIL_HRN : Fld := ⟨0x8, 3, 1⟩
abbrev F.GCR_UNIT_FAIL_MTS : Fld := ⟨0x8, 4, 1⟩
abbrev F.GCR_UNIT_FAIL_CCD : Fld := ⟨0x8, 5, 1⟩
abbrev F.GCR_UNIT_FAIL_HIV : Fld := ⟨0x8, 6, 1⟩
abbrev F.GCR_UNIT_FAIL_MTH : Fld := ⟨0x8, 7, 1⟩
abbrev F.GCR_UNIT_FAIL_TRM : Fld := ⟨0x8, 8, 1⟩
abbrev F.GCR_UNIT_FAIL_HST : Fld := ⟨0x8, 9, 1⟩
abbrev F.GCR_UNIT_FAIL_ETH : Fld := ⟨0x8, 10, 1⟩
abbrev F.GCR_UNIT_FAIL_PWM : Fld := ⟨0x8, 11, 1⟩
abbrev F.GCR_UNIT_FAIL_TWN : Fld := ⟨0x8, 12, 1⟩
abbrev F.GCR_UNIT_FAIL_MDG : Fld := ⟨0x8, 13, 1⟩
abbrev F.GCR_UNIT_FAIL_SWM : Fld := ⟨0x8, 14, 6⟩
abbrev F.GCR_UNIT_FAIL_BTL : Fld := ⟨0x8, 20, 8⟩
abbrev F.GCR_BANK_BANK_BUSY : Fld := ⟨0xC, 0, 8⟩
abbrev F.GCR_BANK_BANK_FAIL : Fld := ⟨0xC, 8, 8⟩
abbrev F.GCR_BANK_RET_FAIL : Fld := ⟨0xC, 16, 1⟩
abbrev F.GCR_SCRUB_PERIOD_S : Fld := ⟨0x10, 0, 8⟩
abbrev F.GCR_SCRUB_EN : Fld := ⟨0x10, 8, 1⟩
abbrev F.GCR_SCRUB_STARVED : Fld := ⟨0x10, 9, 1⟩
abbrev F.GCR_ECC_CE_COUNT : Fld := ⟨0x14, 0, 32⟩
abbrev F.GCR_ECC_UE_LINE : Fld := ⟨0x18, 0, 21⟩
abbrev F.GCR_ECC_UE_RET : Fld := ⟨0x18, 30, 1⟩
abbrev F.GCR_ECC_UE_VALID : Fld := ⟨0x18, 31, 1⟩
abbrev F.CRK_CTL_RUN : Fld := ⟨0x20000, 0, 1⟩
abbrev F.CRK_CTL_ALT : Fld := ⟨0x20000, 1, 1⟩
abbrev F.CRK_CTL_HALF : Fld := ⟨0x20000, 2, 1⟩
abbrev F.CRK_PERIOD_PERIOD_NS : Fld := ⟨0x20004, 0, 15⟩
abbrev F.CRK_EPOCH_LO_VAL : Fld := ⟨0x20008, 0, 32⟩
abbrev F.CRK_EPOCH_HI_VAL : Fld := ⟨0x2000C, 0, 32⟩
abbrev F.CRK_SWEEP_COUNT : Fld := ⟨0x20010, 0, 32⟩
abbrev F.CRK_WIN_WIN_OFF : Fld := ⟨0x20014, 0, 15⟩
abbrev F.CRK_STATE_STATE : Fld := ⟨0x20018, 0, 3⟩
abbrev F.CRK_STATE_FLYING : Fld := ⟨0x20018, 3, 1⟩
abbrev F.CRK_STATE_CAUSE : Fld := ⟨0x20018, 8, 4⟩
abbrev F.CRK_STATE_ARM_TEST : Fld := ⟨0x20018, 16, 6⟩
abbrev F.CRK_CMD_CODE : Fld := ⟨0x2001C, 0, 4⟩
abbrev F.CRK_CMD_STAT_PEND : Fld := ⟨0x20020, 0, 1⟩
abbrev F.CRK_CMD_STAT_LOST : Fld := ⟨0x20020, 1, 1⟩
abbrev F.CRK_CMD_STAT_LAST : Fld := ⟨0x20020, 8, 4⟩
abbrev F.CRK_CMD_STAT_ERR : Fld := ⟨0x20020, 12, 4⟩
abbrev F.CRK_CMD_STAT_ARM_FAIL : Fld := ⟨0x20020, 16, 6⟩
abbrev F.CRK_LATE_TOTAL : Fld := ⟨0x20024, 0, 16⟩
abbrev F.CRK_LATE_LIMIT : Fld := ⟨0x20024, 16, 4⟩
abbrev F.CRK_LATE_CONSEC : Fld := ⟨0x20024, 20, 4⟩
abbrev F.CRK_LATE_FLAG : Fld := ⟨0x20024, 24, 1⟩
abbrev F.CRK_ARMS_ARM_EN : Fld := ⟨0x20028, 0, 6⟩
abbrev F.CRK_ARMS_TOPO : Fld := ⟨0x20028, 8, 3⟩
abbrev F.CRK_BAND_LO_PCT : Fld := ⟨0x2002C, 0, 8⟩
abbrev F.CRK_BAND_HI_PCT : Fld := ⟨0x2002C, 8, 8⟩
abbrev F.CRK_FLY_DV_MAX : Fld := ⟨0x20030, 0, 8⟩
abbrev F.CRK_FLY_LOCK_MS : Fld := ⟨0x20030, 8, 8⟩
abbrev F.CRK_FLY_FLY_THR : Fld := ⟨0x20030, 16, 8⟩
abbrev F.CRK_VBASE_VBASE : Fld := ⟨0x20034, 0, 16⟩
abbrev F.CRK_DBAT_LO_VAL : Fld := ⟨0x20038, 0, 32⟩
abbrev F.CRK_DBAT_HI_VAL : Fld := ⟨0x2003C, 0, 32⟩
abbrev F.SWM_CTL_PRED_EN : Fld := ⟨0x40000, 0, 1⟩
abbrev F.SWM_CTL_MED : Fld := ⟨0x40000, 1, 2⟩
abbrev F.SWM_CTL_PRE_HOOK_EN : Fld := ⟨0x40000, 3, 1⟩
abbrev F.SWM_CTL_KEY_HOOK_EN : Fld := ⟨0x40000, 4, 1⟩
abbrev F.SWM_CFG_N_SLOTS : Fld := ⟨0x40004, 0, 11⟩
abbrev F.SWM_CFG_N_MIN : Fld := ⟨0x40004, 16, 11⟩
abbrev F.SWM_SEL_HYST : Fld := ⟨0x40008, 0, 16⟩
abbrev F.SWM_SEL_SWAP_MAX : Fld := ⟨0x40008, 16, 8⟩
abbrev F.SWM_SEL_EDGE_MAX : Fld := ⟨0x40008, 24, 7⟩
abbrev F.SWM_DIR_I_DEAD : Fld := ⟨0x4000C, 0, 16⟩
abbrev F.SWM_DIR_AGE_MAX : Fld := ⟨0x4000C, 16, 8⟩
abbrev F.SWM_PRED_AGE_NS : Fld := ⟨0x40010, 0, 16⟩
abbrev F.SWM_EDGE_SEP_NS : Fld := ⟨0x40014, 0, 10⟩
abbrev F.SWM_PRE_PRE_BAND : Fld := ⟨0x40018, 0, 10⟩
abbrev F.SWM_STAT_SAT : Fld := ⟨0x4001C, 0, 1⟩
abbrev F.SWM_STAT_EDGE_LIM : Fld := ⟨0x4001C, 1, 1⟩
abbrev F.SWM_STAT_HOOK_FAULT : Fld := ⟨0x4001C, 2, 1⟩
abbrev F.SWM_STAT_REDUND_LOST : Fld := ⟨0x4001C, 3, 1⟩
abbrev F.SWM_STAT_DIR : Fld := ⟨0x4001C, 4, 1⟩
abbrev F.SWM_STAT_POL : Fld := ⟨0x4001C, 5, 1⟩
abbrev F.SWM_COUNT_N_INS : Fld := ⟨0x40020, 0, 11⟩
abbrev F.SWM_COUNT_N_AVAIL : Fld := ⟨0x40020, 16, 11⟩
abbrev F.SWM_FRAC_FRAC : Fld := ⟨0x40024, 0, 16⟩
abbrev F.SWM_FRAC_FSLOT : Fld := ⟨0x40024, 16, 10⟩
abbrev F.SWM_FRAC_FVALID : Fld := ⟨0x40024, 31, 1⟩
abbrev F.SWM_VREF_VAL : Fld := ⟨0x40028, 0, 32⟩
abbrev F.SWM_IARM_VAL : Fld := ⟨0x4002C, 0, 32⟩
abbrev F.SWM_VERR_VAL : Fld := ⟨0x40030, 0, 32⟩
abbrev F.SWM_EVT_EDGE_LIM_CNT : Fld := ⟨0x40034, 0, 16⟩
abbrev F.SWM_EVT_SAT_CNT : Fld := ⟨0x40034, 16, 16⟩
abbrev F.SWM_TBL_REFRESH : Fld := ⟨0x40038, 0, 1⟩
abbrev F.SWM_TBL_DIRTY : Fld := ⟨0x40038, 1, 1⟩
abbrev F.SWM_TBL_STARVED : Fld := ⟨0x40038, 2, 1⟩
abbrev F.SWM_TBL_DONE : Fld := ⟨0x40038, 3, 1⟩
abbrev F.SWM_TBL_ERR : Fld := ⟨0x40038, 4, 4⟩
abbrev F.SWM_TBL_ERR_SLOT : Fld := ⟨0x40038, 16, 10⟩
abbrev F.SWM_HOOK_LOAD : Fld := ⟨0x4003C, 0, 1⟩
abbrev F.SWM_HOOK_ACT : Fld := ⟨0x4003C, 1, 1⟩
abbrev F.SWM_HOOK_ERR : Fld := ⟨0x4003C, 4, 4⟩
abbrev F.SWM_HOOK_ERR_INDEX : Fld := ⟨0x4003C, 8, 8⟩
abbrev F.SWM_HOOK_ERR_HOOK : Fld := ⟨0x4003C, 16, 1⟩
abbrev F.SWM_TEST_GO : Fld := ⟨0x40040, 0, 1⟩
abbrev F.SWM_TEST_SKIP : Fld := ⟨0x40040, 8, 8⟩
abbrev F.SWM_HOLD_HOLD_US : Fld := ⟨0x58000, 0, 7⟩
abbrev F.SWM_CAL_START : Fld := ⟨0x58004, 0, 1⟩
abbrev F.SWM_CAL_BG_EN : Fld := ⟨0x58004, 1, 1⟩
abbrev F.SWM_CAL_DONE : Fld := ⟨0x58004, 2, 1⟩
abbrev F.SWM_CAL_JUMP : Fld := ⟨0x58004, 3, 1⟩
abbrev F.SWM_CAL_TOL_NS : Fld := ⟨0x58004, 8, 4⟩
abbrev F.SWM_CAL_JUMP_ID : Fld := ⟨0x58004, 16, 13⟩
abbrev F.SWM_CAL_STAT_PASSES : Fld := ⟨0x58008, 0, 16⟩
abbrev F.SWM_CAL_STAT_STARVED : Fld := ⟨0x58008, 16, 1⟩
abbrev F.SWM_RFX_REFLEX_MAX : Fld := ⟨0x58010, 0, 4⟩
abbrev F.SWM_RFX_EN : Fld := ⟨0x58010, 4, 1⟩
abbrev F.SWM_FESC_PBY_MASK : Fld := ⟨0x58014, 0, 16⟩
abbrev F.SWM_ECNT_FRAC_ADJ : Fld := ⟨0x58100, 0, 16⟩
abbrev F.SWM_ECNT_RFX_GRANT : Fld := ⟨0x58100, 16, 16⟩
abbrev F.SWM_RCNT_RFX_DENY : Fld := ⟨0x58104, 0, 16⟩
abbrev F.SWM_RCNT_LATE_EDGE : Fld := ⟨0x58104, 16, 16⟩
abbrev F.SWM_CFTHR_OV_PCT : Fld := ⟨0x58108, 0, 8⟩
abbrev F.SWM_CFTHR_UV_PCT : Fld := ⟨0x58108, 8, 8⟩
abbrev F.SWM_FTIME_D_NS : Fld := ⟨0x5810C, 0, 15⟩
abbrev F.SWM_FTIME_ADJ : Fld := ⟨0x5810C, 16, 1⟩
abbrev F.SWM_EDGES_N_EDGES : Fld := ⟨0x58110, 0, 11⟩
abbrev F.SWM_EDGES_LAST_ET : Fld := ⟨0x58110, 16, 15⟩
abbrev F.SWM_EDGES_DEFER : Fld := ⟨0x58110, 31, 1⟩
abbrev F.SWM_CF_CODE : Fld := ⟨0x60000, 0, 4⟩
abbrev F.SWM_CF_HELD : Fld := ⟨0x60000, 4, 4⟩
abbrev F.SWM_CF_ACTIVE : Fld := ⟨0x60000, 8, 1⟩
abbrev F.SWM_CF_PERM : Fld := ⟨0x60000, 9, 1⟩
abbrev F.SWM_CF_SRC : Fld := ⟨0x60000, 10, 1⟩
abbrev F.SWM_CF_CLR : Fld := ⟨0x60000, 11, 1⟩
abbrev F.SWM_CF_COUNT : Fld := ⟨0x60000, 16, 8⟩
abbrev F.HRN_CTL_EXEC_EN : Fld := ⟨0x80000, 0, 1⟩
abbrev F.HRN_CTL_PUBLISH : Fld := ⟨0x80000, 1, 1⟩
abbrev F.HRN_CTL_TMAX_CLR : Fld := ⟨0x80000, 2, 1⟩
abbrev F.HRN_BANK_LOAD : Fld := ⟨0x80004, 0, 1⟩
abbrev F.HRN_BANK_ACT : Fld := ⟨0x80004, 1, 1⟩
abbrev F.HRN_BANK_WITH_PAR : Fld := ⟨0x80004, 2, 1⟩
abbrev F.HRN_BANK_DIRTY : Fld := ⟨0x80004, 3, 1⟩
abbrev F.HRN_BANK_ERR : Fld := ⟨0x80004, 4, 4⟩
abbrev F.HRN_BANK_ERR_INDEX : Fld := ⟨0x80004, 8, 11⟩
abbrev F.HRN_PAR_SWAP : Fld := ⟨0x80008, 0, 1⟩
abbrev F.HRN_PAR_ACT : Fld := ⟨0x80008, 1, 1⟩
abbrev F.HRN_PAR_DIRTY : Fld := ⟨0x80008, 2, 1⟩
abbrev F.HRN_PAR_ERR : Fld := ⟨0x80008, 4, 4⟩
abbrev F.HRN_PAR_ERR_LANE : Fld := ⟨0x80008, 8, 5⟩
abbrev F.HRN_STAT_SAT : Fld := ⟨0x8000C, 0, 1⟩
abbrev F.HRN_STAT_GOV : Fld := ⟨0x8000C, 1, 1⟩
abbrev F.HRN_STAT_EXEC_FAULT : Fld := ⟨0x8000C, 2, 1⟩
abbrev F.HRN_STAT_BANK_DONE : Fld := ⟨0x8000C, 3, 1⟩
abbrev F.HRN_STAT_PAR_DONE : Fld := ⟨0x8000C, 4, 1⟩
abbrev F.HRN_SAT_LANES_LANES : Fld := ⟨0x80010, 0, 32⟩
abbrev F.HRN_GOV_LANES_LANES : Fld := ⟨0x80014, 0, 32⟩
abbrev F.HRN_TIME_LAST_NS : Fld := ⟨0x80018, 0, 10⟩
abbrev F.HRN_TIME_MAX_NS : Fld := ⟨0x80018, 16, 10⟩
abbrev F.HRN_CNT_INSTR : Fld := ⟨0x8001C, 0, 12⟩
abbrev F.HRN_CNT_MACS : Fld := ⟨0x8001C, 16, 10⟩
abbrev F.HRN_PVER_PROG_VER : Fld := ⟨0x80020, 0, 16⟩
abbrev F.HRN_PTAG_PAIR_TAG : Fld := ⟨0x80024, 0, 32⟩
abbrev F.HRN_SUP_AC_LIVE : Fld := ⟨0x80028, 0, 1⟩
abbrev F.HRN_SUP_DC_LIVE : Fld := ⟨0x80028, 1, 1⟩
abbrev F.HRN_SUP_LOCK : Fld := ⟨0x80028, 2, 1⟩
abbrev F.MDG_CTL_EN : Fld := ⟨0xA0000, 0, 16⟩
abbrev F.MDG_CTL_CAL_EN : Fld := ⟨0xA0000, 16, 1⟩
abbrev F.MDG_STAT_FAIL : Fld := ⟨0xA0004, 0, 16⟩
abbrev F.MDG_STAT_PL_SRC : Fld := ⟨0xA0004, 16, 8⟩
abbrev F.MDG_SWTRIG_TRIG : Fld := ⟨0xA0008, 0, 16⟩
abbrev F.MDG_PLAUS_TOL : Fld := ⟨0xA000C, 0, 8⟩
abbrev F.MDG_PLAUS_FAIL_N : Fld := ⟨0xA000C, 8, 4⟩
abbrev F.MDG_PLAUS_EN : Fld := ⟨0xA000C, 12, 1⟩
abbrev F.MDG_CALINT_INT_US : Fld := ⟨0xA0010, 0, 16⟩
abbrev F.MDG_REARM_REARM : Fld := ⟨0xA0014, 0, 16⟩
abbrev F.MDG_CFG_TRIG_SRC : Fld := ⟨0xA0100, 0, 3⟩
abbrev F.MDG_CFG_TRIG_SEL : Fld := ⟨0xA0100, 4, 4⟩
abbrev F.MDG_CFG_SIGNED : Fld := ⟨0xA0100, 8, 1⟩
abbrev F.MDG_CFG_LEFT : Fld := ⟨0xA0100, 9, 1⟩
abbrev F.MDG_CFG_NENT : Fld := ⟨0xA0100, 10, 2⟩
abbrev F.MDG_CFG_OVR_EN : Fld := ⟨0xA0100, 12, 1⟩
abbrev F.MDG_CFG_ARMS : Fld := ⟨0xA0100, 16, 6⟩
abbrev F.MDG_DLY_DELAY_NS : Fld := ⟨0xA0104, 0, 16⟩
abbrev F.MDG_SEQ_CH : Fld := ⟨0xA0108, 0, 16⟩
abbrev F.MDG_DATA_DATA : Fld := ⟨0xA010C, 0, 16⟩
abbrev F.MDG_DATA_ENTRY : Fld := ⟨0xA010C, 16, 2⟩
abbrev F.MDG_DATA_CH : Fld := ⟨0xA010C, 20, 4⟩
abbrev F.MDG_DATA_VALID : Fld := ⟨0xA010C, 24, 1⟩
abbrev F.MDG_DATA_OVR : Fld := ⟨0xA010C, 25, 1⟩
abbrev F.MDG_CNT_TRIG_LOST : Fld := ⟨0xA0110, 0, 16⟩
abbrev F.MDG_CNT_QUEUED : Fld := ⟨0xA0110, 16, 16⟩
abbrev F.MDG_CSTAT_CAL_STARVED : Fld := ⟨0xA0114, 0, 1⟩
abbrev F.MDG_CSTAT_BUSY : Fld := ⟨0xA0114, 1, 1⟩
abbrev F.MDG_CSTAT_PEND : Fld := ⟨0xA0114, 2, 1⟩
abbrev F.MDG_CSTAT_LOST : Fld := ⟨0xA0114, 3, 1⟩
abbrev F.MDG_CSTAT_SPARE : Fld := ⟨0xA0114, 4, 4⟩
abbrev F.MDG_CSTAT_CAL_FAIL : Fld := ⟨0xA0114, 8, 1⟩
abbrev F.MDG_CSTAT_DEFER : Fld := ⟨0xA0114, 16, 16⟩
abbrev F.MDG_STAMP_T_NS : Fld := ⟨0xA0118, 0, 32⟩
abbrev F.LCW_CTL_EN : Fld := ⟨0xB0000, 0, 1⟩
abbrev F.LCW_CTL_FREEZE_ALL : Fld := ⟨0xB0000, 1, 1⟩
abbrev F.LCW_STAT_OVR : Fld := ⟨0xB0004, 0, 1⟩
abbrev F.LCW_STAT_SAT : Fld := ⟨0xB0004, 1, 1⟩
abbrev F.LCW_STAT_STALE : Fld := ⟨0xB0004, 2, 1⟩
abbrev F.LCW_OVR0_SLOTS : Fld := ⟨0xB0008, 0, 32⟩
abbrev F.LCW_OVR1_SLOTS : Fld := ⟨0xB000C, 0, 32⟩
abbrev F.LCW_VALID0_SLOTS : Fld := ⟨0xB0010, 0, 32⟩
abbrev F.LCW_VALID1_SLOTS : Fld := ⟨0xB0014, 0, 32⟩
abbrev F.LCW_CFG_STALE_N : Fld := ⟨0xB0018, 0, 8⟩
abbrev F.LCW_SRC_CONV : Fld := ⟨0xB0100, 0, 4⟩
abbrev F.LCW_SRC_ENTRY : Fld := ⟨0xB0100, 4, 2⟩
abbrev F.LCW_SRC_EN : Fld := ⟨0xB0100, 7, 1⟩
abbrev F.LCW_SRC_MED : Fld := ⟨0xB0100, 8, 1⟩
abbrev F.LCW_SRC_DEC : Fld := ⟨0xB0100, 9, 2⟩
abbrev F.LCW_SRC_DCB : Fld := ⟨0xB0100, 11, 1⟩
abbrev F.LCW_SRC_FRZ : Fld := ⟨0xB0100, 12, 1⟩
abbrev F.LCW_SRC_K : Fld := ⟨0xB0100, 16, 5⟩
abbrev F.LCW_SRC_SHIFT : Fld := ⟨0xB0100, 24, 5⟩
abbrev F.LCW_OFS_OFS : Fld := ⟨0xB0104, 0, 16⟩
abbrev F.LCW_GAIN_GAIN : Fld := ⟨0xB0108, 0, 32⟩
abbrev F.LCW_OUT_OUT : Fld := ⟨0xB010C, 0, 32⟩
abbrev F.DFY_PCTL_BRINGUP : Fld := ⟨0xC0000, 0, 1⟩
abbrev F.DFY_PCTL_RELOCK_EN : Fld := ⟨0xC0000, 1, 1⟩
abbrev F.DFY_PCTL_DOWN : Fld := ⟨0xC0000, 2, 1⟩
abbrev F.DFY_PCTL_IMP_GO : Fld := ⟨0xC0000, 3, 1⟩
abbrev F.DFY_PSTAT_LOCKED : Fld := ⟨0xC0004, 0, 9⟩
abbrev F.DFY_PSTAT_UP : Fld := ⟨0xC0004, 9, 1⟩
abbrev F.DFY_PSTAT_DEGRADED : Fld := ⟨0xC0004, 10, 1⟩
abbrev F.DFY_PSTAT_LOL : Fld := ⟨0xC0004, 11, 1⟩
abbrev F.DFY_PSTAT_BU_FAIL : Fld := ⟨0xC0004, 12, 1⟩
abbrev F.DFY_PSTAT_IMP_ACT : Fld := ⟨0xC0004, 13, 1⟩
abbrev F.DFY_IMP_MODE : Fld := ⟨0xC0008, 0, 3⟩
abbrev F.DFY_IMP_LANES : Fld := ⟨0xC0008, 4, 8⟩
abbrev F.DFY_IMP_SLOT : Fld := ⟨0xC0008, 12, 7⟩
abbrev F.DFY_IMP_COUNT : Fld := ⟨0xC0008, 24, 8⟩
abbrev F.DFY_IMP_AT_AT_SWEEP : Fld := ⟨0xC000C, 0, 32⟩
abbrev F.DFY_LSTAT_PHASE : Fld := ⟨0xC0100, 0, 3⟩
abbrev F.DFY_LSTAT_USABLE : Fld := ⟨0xC0100, 3, 1⟩
abbrev F.DFY_LSTAT_ATTEMPT : Fld := ⟨0xC0100, 4, 4⟩
abbrev F.DFY_LSTAT_REQUAL : Fld := ⟨0xC0100, 8, 1⟩
abbrev F.DFY_LSTAT_REQUAL_FAIL : Fld := ⟨0xC0100, 9, 1⟩
abbrev F.DFY_LSTAT_LOL : Fld := ⟨0xC0100, 10, 1⟩
abbrev F.DFY_LSTAT_SLIPS : Fld := ⟨0xC0100, 16, 3⟩
abbrev F.DFY_LERR_STUFF_VIOL : Fld := ⟨0xC0104, 0, 16⟩
abbrev F.DFY_LERR_LOL_CNT : Fld := ⟨0xC0104, 16, 16⟩
abbrev F.DFY_LPH_CENTRE : Fld := ⟨0xC0108, 0, 6⟩
abbrev F.DFY_LPH_EYE_W : Fld := ⟨0xC0108, 8, 6⟩
abbrev F.DFY_LPH_TRACK : Fld := ⟨0xC0108, 16, 6⟩
abbrev F.DFY_ESCTL_START : Fld := ⟨0xC010C, 0, 1⟩
abbrev F.DFY_ESCTL_DONE : Fld := ⟨0xC010C, 1, 1⟩
abbrev F.DFY_ESCTL_REJ : Fld := ⟨0xC010C, 2, 1⟩
abbrev F.DFY_ESCTL_STARVED : Fld := ⟨0xC010C, 3, 1⟩
abbrev F.DFY_ESCTL_PH_OFF : Fld := ⟨0xC010C, 4, 7⟩
abbrev F.DFY_ESCTL_V_OFF : Fld := ⟨0xC010C, 12, 6⟩
abbrev F.DFY_ESCTL_DWELL_EXP : Fld := ⟨0xC010C, 24, 6⟩
abbrev F.DFY_ESERR_ERRORS : Fld := ⟨0xC0110, 0, 32⟩
abbrev F.DFY_ESBITS_BITS : Fld := ⟨0xC0114, 0, 32⟩
abbrev F.DFY_EQ_CTL_LOAD : Fld := ⟨0xE0000, 0, 1⟩
abbrev F.DFY_EQ_CTL_DONE : Fld := ⟨0xE0000, 1, 1⟩
abbrev F.DFY_EQ_CTL_DEFAULT : Fld := ⟨0xE0000, 2, 1⟩
abbrev F.DFY_EQ_CTL_ERR : Fld := ⟨0xE0000, 4, 4⟩
abbrev F.DFY_EQ_CTL_ERR_ENTRY : Fld := ⟨0xE0000, 8, 8⟩
abbrev F.DFY_EQ_ADDR_ADDR : Fld := ⟨0xE0004, 0, 25⟩
abbrev F.DFY_EQ_STAT_VER : Fld := ⟨0xE0008, 0, 16⟩
abbrev F.DFY_EQ_STAT_BOARD_ID : Fld := ⟨0xE0008, 16, 16⟩
abbrev F.DFY_BUCFG_ATTEMPTS : Fld := ⟨0xE000C, 0, 4⟩
abbrev F.DFY_BUCFG_EYE_MIN : Fld := ⟨0xE000C, 8, 6⟩
abbrev F.DFY_FCFG_SAMP_NS : Fld := ⟨0xC0400, 0, 14⟩
abbrev F.DFY_FCFG_UP_LAG : Fld := ⟨0xC0400, 16, 2⟩
abbrev F.DFY_UPST_UP_START_NS : Fld := ⟨0xC0404, 0, 16⟩
abbrev F.DFY_FSTAT_EPOCH : Fld := ⟨0xC0408, 0, 8⟩
abbrev F.DFY_FSTAT_INT_ERR : Fld := ⟨0xC0408, 16, 16⟩
abbrev F.DFY_FERR_SCRC_ERR : Fld := ⟨0xC0500, 0, 16⟩
abbrev F.DFY_FERR_HCRC_ERR : Fld := ⟨0xC0500, 16, 16⟩
abbrev F.DFY_FERR2_SEQ_ERR : Fld := ⟨0xC0504, 0, 12⟩
abbrev F.DFY_FERR2_UP_LATE : Fld := ⟨0xC0504, 12, 4⟩
abbrev F.DFY_FERR2_SLOT_ERR : Fld := ⟨0xC0504, 16, 16⟩
abbrev F.DFY_RFXERR_RCRC_ERR : Fld := ⟨0xC0508, 0, 16⟩
abbrev F.DFY_RFXERR_RFX_BAD : Fld := ⟨0xC0508, 16, 16⟩
abbrev F.DFY_CREDIT_MGMT_BUF : Fld := ⟨0xC050C, 0, 5⟩
abbrev F.DFY_CREDIT_AVAIL : Fld := ⟨0xC050C, 8, 5⟩
abbrev F.DFY_CREDIT_OUTST : Fld := ⟨0xC050C, 16, 5⟩
abbrev F.DFY_CREDIT_ID_OK : Fld := ⟨0xC050C, 21, 1⟩
abbrev F.DFY_CREDIT_CRED_ERR : Fld := ⟨0xC050C, 24, 8⟩
abbrev F.DFY_NODE_NODE_ID : Fld := ⟨0xC0510, 0, 16⟩
abbrev F.DFY_NODE_ASYM : Fld := ⟨0xC0510, 16, 16⟩
abbrev F.FFY_CTL_STEP : Fld := ⟨0x10000, 0, 1⟩
abbrev F.FFY_CTL_RELOCK : Fld := ⟨0x10000, 1, 1⟩
abbrev F.FFY_CTL_PPS_EN : Fld := ⟨0x10000, 2, 1⟩
abbrev F.FFY_CTL_PPS_W : Fld := ⟨0x10000, 8, 8⟩
abbrev F.FFY_STAT_LOCK : Fld := ⟨0x10004, 0, 1⟩
abbrev F.FFY_STAT_GATED : Fld := ⟨0x10004, 1, 1⟩
abbrev F.FFY_STAT_SLEWING : Fld := ⟨0x10004, 2, 1⟩
abbrev F.FFY_STAT_RANGE : Fld := ⟨0x10004, 3, 1⟩
abbrev F.FFY_STAT_HOLDOVER : Fld := ⟨0x10004, 4, 1⟩
abbrev F.FFY_STAT_DOM_SEL : Fld := ⟨0x10004, 5, 1⟩
abbrev F.FFY_STAT_DOM_SW : Fld := ⟨0x10004, 6, 1⟩
abbrev F.FFY_STAT_TXTS_OVF : Fld := ⟨0x10004, 7, 1⟩
abbrev F.FFY_STAT_VALID_A : Fld := ⟨0x10004, 8, 1⟩
abbrev F.FFY_STAT_VALID_B : Fld := ⟨0x10004, 9, 1⟩
abbrev F.FFY_STAT_DUAL : Fld := ⟨0x10004, 10, 1⟩
abbrev F.FFY_NOW_LO_VAL : Fld := ⟨0x10008, 0, 32⟩
abbrev F.FFY_NOW_HI_VAL : Fld := ⟨0x1000C, 0, 32⟩
abbrev F.FFY_RATE_VAL : Fld := ⟨0x10010, 0, 32⟩
abbrev F.FFY_RATE_ACT_VAL : Fld := ⟨0x10014, 0, 32⟩
abbrev F.FFY_STEP_LO_VAL : Fld := ⟨0x10018, 0, 32⟩
abbrev F.FFY_STEP_HI_VAL : Fld := ⟨0x1001C, 0, 32⟩
abbrev F.FFY_PTP_GROUP_N : Fld := ⟨0x10020, 0, 6⟩
abbrev F.FFY_PTP_PTP_EN : Fld := ⟨0x10020, 6, 2⟩
abbrev F.FFY_PTP_SYNC_TO : Fld := ⟨0x10020, 8, 4⟩
abbrev F.FFY_DOM_DOM_A : Fld := ⟨0x10024, 0, 7⟩
abbrev F.FFY_DOM_DOM_B : Fld := ⟨0x10024, 8, 7⟩
abbrev F.FFY_DOM_INV_A : Fld := ⟨0x10024, 16, 1⟩
abbrev F.FFY_DOM_INV_B : Fld := ⟨0x10024, 17, 1⟩
abbrev F.FFY_TXTS_HDR_SEQID : Fld := ⟨0x10028, 0, 16⟩
abbrev F.FFY_TXTS_HDR_MSGTYPE : Fld := ⟨0x10028, 16, 4⟩
abbrev F.FFY_TXTS_HDR_PORT : Fld := ⟨0x10028, 20, 1⟩
abbrev F.FFY_TXTS_HDR_DOMIDX : Fld := ⟨0x10028, 21, 1⟩
abbrev F.FFY_TXTS_HDR_LOST : Fld := ⟨0x10028, 24, 7⟩
abbrev F.FFY_TXTS_HDR_VALID : Fld := ⟨0x10028, 31, 1⟩
abbrev F.FFY_TXTS_LO_VAL : Fld := ⟨0x1002C, 0, 32⟩
abbrev F.FFY_TXTS_HI_VAL : Fld := ⟨0x10030, 0, 32⟩
abbrev F.FFY_EV_T_VAL : Fld := ⟨0x10100, 0, 32⟩
abbrev F.FFY_EV_PER_VAL : Fld := ⟨0x10104, 0, 32⟩
abbrev F.FFY_EV_CTL_EN : Fld := ⟨0x10108, 0, 1⟩
abbrev F.FFY_EV_CTL_PWM_SYNC : Fld := ⟨0x10108, 1, 1⟩
abbrev F.FFY_EV_CTL_HIVE : Fld := ⟨0x10108, 2, 1⟩
abbrev F.FFY_EV_CTL_LATE : Fld := ⟨0x10108, 3, 1⟩
abbrev F.FFY_EV_CTL_FLAG : Fld := ⟨0x10108, 4, 6⟩
abbrev F.FFY_EV_CTL_TASK : Fld := ⟨0x10108, 12, 12⟩
abbrev F.FFY_EV_CTL_MISSED : Fld := ⟨0x10108, 24, 8⟩
abbrev F.FFY_CAP_CTL_SRC : Fld := ⟨0x10200, 0, 4⟩
abbrev F.FFY_CAP_CTL_VALID : Fld := ⟨0x10200, 4, 1⟩
abbrev F.FFY_CAP_CTL_OVR : Fld := ⟨0x10200, 5, 1⟩
abbrev F.FFY_CAP_LO_VAL : Fld := ⟨0x10204, 0, 32⟩
abbrev F.FFY_CAP_HI_VAL : Fld := ⟨0x10208, 0, 32⟩
abbrev F.BTL_CTL_RUN : Fld := ⟨0x170000, 0, 8⟩
abbrev F.BTL_CTL_DBG_EN : Fld := ⟨0x170000, 8, 1⟩
abbrev F.BTL_HALT_HALT : Fld := ⟨0x170004, 0, 8⟩
abbrev F.BTL_HALT_RESUME : Fld := ⟨0x170004, 8, 8⟩
abbrev F.BTL_HALT_HALTED : Fld := ⟨0x170004, 16, 8⟩
abbrev F.BTL_STAT_NEST : Fld := ⟨0x170008, 0, 8⟩
abbrev F.BTL_BOOT_ADDR : Fld := ⟨0x170100, 2, 30⟩
abbrev F.BTL_PC_PC : Fld := ⟨0x170104, 0, 32⟩
abbrev F.BTL_CAUSE_CAUSE : Fld := ⟨0x170108, 0, 32⟩
abbrev F.BTL_EPC_EPC : Fld := ⟨0x17010C, 0, 32⟩
abbrev F.BTL_GSEL_REG : Fld := ⟨0x170110, 0, 5⟩
abbrev F.BTL_GDATA_DATA : Fld := ⟨0x170114, 0, 32⟩
abbrev F.BTL_STALL_FWD_STALL : Fld := ⟨0x170118, 0, 16⟩
abbrev F.BTL_STALL_SB_FULL : Fld := ⟨0x170118, 16, 16⟩
abbrev F.BTL_TCFG_CORE : Fld := ⟨0x171000, 0, 3⟩
abbrev F.BTL_TCFG_MODE : Fld := ⟨0x171000, 4, 2⟩
abbrev F.BTL_TCFG_WDG_N : Fld := ⟨0x171000, 8, 8⟩
abbrev F.BTL_TPER_PER : Fld := ⟨0x171004, 0, 24⟩
abbrev F.BTL_TPH_PHASE : Fld := ⟨0x171008, 0, 24⟩
abbrev F.BTL_TIMG_ADDR : Fld := ⟨0x17100C, 10, 15⟩
abbrev F.BTL_TCMD_DONE : Fld := ⟨0x171010, 0, 1⟩
abbrev F.BTL_TSTAT_MODE_ACT : Fld := ⟨0x171014, 0, 2⟩
abbrev F.BTL_TSTAT_BUSY : Fld := ⟨0x171014, 2, 1⟩
abbrev F.BTL_TSTAT_OVR : Fld := ⟨0x171014, 3, 1⟩
abbrev F.BTL_TSTAT_WDG : Fld := ⟨0x171014, 4, 1⟩
abbrev F.BTL_TSTAT_HELD : Fld := ⟨0x171014, 5, 1⟩
abbrev F.BTL_TSTAT_SPLIT : Fld := ⟨0x171014, 6, 1⟩
abbrev F.BTL_TSTAT_CONSEC : Fld := ⟨0x171014, 8, 8⟩
abbrev F.BTL_TSTAT_ERR : Fld := ⟨0x171014, 16, 4⟩
abbrev F.BTL_TCNT_SKIP : Fld := ⟨0x171018, 0, 16⟩
abbrev F.BTL_TCNT_MAX_SW : Fld := ⟨0x171018, 16, 16⟩
abbrev F.BTL_THIV_HTASK : Fld := ⟨0x17101C, 0, 12⟩
abbrev F.BTL_THIV_FLAG : Fld := ⟨0x17101C, 16, 6⟩
abbrev F.HIV_CTL_INIT : Fld := ⟨0x100000, 0, 1⟩
abbrev F.HIV_CTL_READY : Fld := ⟨0x100000, 1, 1⟩
abbrev F.HIV_STAT_POISON : Fld := ⟨0x100004, 0, 1⟩
abbrev F.HIV_STAT_REL_ERR : Fld := ⟨0x100004, 1, 1⟩
abbrev F.HIV_STAT_MISMATCH : Fld := ⟨0x100004, 2, 1⟩
abbrev F.HIV_ERRCNT_FULL_CNT : Fld := ⟨0x100008, 0, 16⟩
abbrev F.HIV_ERRCNT_REL_CNT : Fld := ⟨0x100008, 16, 16⟩
abbrev F.HIV_STRAND_ITEMS : Fld := ⟨0x10000C, 0, 22⟩
abbrev F.HIV_DONE_TAG : Fld := ⟨0x100010, 0, 15⟩
abbrev F.HIV_HEV_TASK : Fld := ⟨0x100014, 0, 12⟩
abbrev F.HIV_HEV_FLAG : Fld := ⟨0x100014, 16, 6⟩
abbrev F.HIV_QSEL_QUEUE : Fld := ⟨0x100020, 0, 20⟩
abbrev F.HIV_QCFG_EN : Fld := ⟨0x100024, 0, 1⟩
abbrev F.HIV_QCFG_HOLD : Fld := ⟨0x100024, 1, 1⟩
abbrev F.HIV_QCFG_ATOMIC : Fld := ⟨0x100024, 2, 1⟩
abbrev F.HIV_QCFG_NEN : Fld := ⟨0x100024, 3, 1⟩
abbrev F.HIV_QCFG_LIMIT_EXP : Fld := ⟨0x100024, 4, 5⟩
abbrev F.HIV_QCFG_NFLAG : Fld := ⟨0x100024, 14, 6⟩
abbrev F.HIV_QCFG_NTASK : Fld := ⟨0x100024, 20, 12⟩
abbrev F.HIV_QCMD_WR : Fld := ⟨0x100028, 0, 1⟩
abbrev F.HIV_QCMD_RD : Fld := ⟨0x100028, 1, 1⟩
abbrev F.HIV_QCMD_FLUSH : Fld := ⟨0x100028, 2, 1⟩
abbrev F.HIV_QCMD_BUSY : Fld := ⟨0x100028, 3, 1⟩
abbrev F.HIV_QCMD_ERR : Fld := ⟨0x100028, 4, 4⟩
abbrev F.HIV_QDEPTH_DEPTH : Fld := ⟨0x10002C, 0, 22⟩
abbrev F.HIV_TSEL_TASK : Fld := ⟨0x100030, 0, 12⟩
abbrev F.HIV_TCFG_GROUP : Fld := ⟨0x100034, 0, 6⟩
abbrev F.HIV_TCFG_AFF : Fld := ⟨0x100034, 8, 8⟩
abbrev F.HIV_TCFG_EN : Fld := ⟨0x100034, 16, 1⟩
abbrev F.HIV_TMASK_LO_VAL : Fld := ⟨0x100038, 0, 32⟩
abbrev F.HIV_TMASK_HI_VAL : Fld := ⟨0x10003C, 0, 32⟩
abbrev F.HIV_TFLAG_LO_VAL : Fld := ⟨0x100040, 0, 32⟩
abbrev F.HIV_TFLAG_HI_VAL : Fld := ⟨0x100044, 0, 32⟩
abbrev F.HIV_TCMD_WR : Fld := ⟨0x100048, 0, 1⟩
abbrev F.HIV_TCMD_RD : Fld := ⟨0x100048, 1, 1⟩
abbrev F.HIV_TCMD_CLRF : Fld := ⟨0x100048, 2, 1⟩
abbrev F.HIV_AUDIT_SNAP : Fld := ⟨0x100050, 0, 1⟩
abbrev F.HIV_AUDIT_DONE : Fld := ⟨0x100050, 1, 1⟩
abbrev F.HIV_AUDIT_BAL : Fld := ⟨0x100050, 2, 1⟩
abbrev F.HIV_TAKE_TASK : Fld := ⟨0x100100, 0, 12⟩
abbrev F.HIV_TAKE_VALID : Fld := ⟨0x100100, 31, 1⟩
abbrev F.HIV_CUR_TASK : Fld := ⟨0x100104, 0, 12⟩
abbrev F.HIV_CUR_VALID : Fld := ⟨0x100104, 31, 1⟩
abbrev F.HIV_YIELD_YIELD : Fld := ⟨0x100108, 0, 1⟩
abbrev F.MTH_CTL_EN : Fld := ⟨0x120000, 0, 1⟩
abbrev F.MTH_CTL_MODE : Fld := ⟨0x120000, 1, 1⟩
abbrev F.MTH_CTL_ARM : Fld := ⟨0x120000, 2, 1⟩
abbrev F.MTH_CTL_TRIG : Fld := ⟨0x120000, 3, 1⟩
abbrev F.MTH_CTL_LOSS_CLR : Fld := ⟨0x120000, 4, 1⟩
abbrev F.MTH_STAT_PHASE : Fld := ⟨0x120004, 0, 2⟩
abbrev F.MTH_STAT_PRE_SHORT : Fld := ⟨0x120004, 2, 1⟩
abbrev F.MTH_STAT_POISON : Fld := ⟨0x120004, 3, 1⟩
abbrev F.MTH_STAT_BANK_FAIL : Fld := ⟨0x120004, 4, 1⟩
abbrev F.MTH_TSRC_SRC : Fld := ⟨0x120008, 0, 8⟩
abbrev F.MTH_TSRC_EVSEL : Fld := ⟨0x120008, 8, 4⟩
abbrev F.MTH_PRE_PRE : Fld := ⟨0x12000C, 0, 12⟩
abbrev F.MTH_RED_N : Fld := ⟨0x120010, 0, 13⟩
abbrev F.MTH_TRIG_VAL : Fld := ⟨0x120014, 0, 32⟩
abbrev F.MTH_THIT_HIT : Fld := ⟨0x120018, 0, 8⟩
abbrev F.MTH_THIT_IGN : Fld := ⟨0x120018, 16, 16⟩
abbrev F.MTH_HEAD_VAL : Fld := ⟨0x12001C, 0, 32⟩
abbrev F.MTH_LOSS_VAL : Fld := ⟨0x120020, 0, 32⟩
abbrev F.TRM_DESC_ADDR : Fld := ⟨0x130000, 6, 19⟩
abbrev F.TRM_CMD_START : Fld := ⟨0x130004, 0, 1⟩
abbrev F.TRM_CMD_RESUME : Fld := ⟨0x130004, 1, 1⟩
abbrev F.TRM_CMD_FINISH : Fld := ⟨0x130004, 2, 1⟩
abbrev F.TRM_CMD_ABORT : Fld := ⟨0x130004, 3, 1⟩
abbrev F.TRM_STAT_BUSY : Fld := ⟨0x130008, 0, 1⟩
abbrev F.TRM_STAT_SUSP : Fld := ⟨0x130008, 1, 1⟩
abbrev F.TRM_STAT_DONE : Fld := ⟨0x130008, 2, 1⟩
abbrev F.TRM_STAT_CODE : Fld := ⟨0x130008, 4, 4⟩
abbrev F.TRM_IN_VAL : Fld := ⟨0x13000C, 0, 32⟩
abbrev F.TRM_OUT_VAL : Fld := ⟨0x130010, 0, 32⟩
abbrev F.TWN_CTL_EN : Fld := ⟨0x140000, 0, 1⟩
abbrev F.TWN_CTL_HANDOVER : Fld := ⟨0x140000, 1, 1⟩
abbrev F.TWN_CTL_RELEASE : Fld := ⟨0x140000, 2, 1⟩
abbrev F.TWN_CTL_AUTO_RET : Fld := ⟨0x140000, 3, 1⟩
abbrev F.TWN_CFG_UNIT : Fld := ⟨0x140004, 0, 1⟩
abbrev F.TWN_CFG_PREF_UNIT : Fld := ⟨0x140004, 1, 1⟩
abbrev F.TWN_CFG_SOLO_EN : Fld := ⟨0x140004, 2, 1⟩
abbrev F.TWN_CFG_ST_N : Fld := ⟨0x140004, 8, 6⟩
abbrev F.TWN_CFG_TOFS_MAX : Fld := ⟨0x140004, 16, 8⟩
abbrev F.TWN_CFG_SOLO_MS : Fld := ⟨0x140004, 24, 8⟩
abbrev F.TWN_STAT_ROLE : Fld := ⟨0x140008, 0, 2⟩
abbrev F.TWN_STAT_P_ROLE : Fld := ⟨0x140008, 2, 2⟩
abbrev F.TWN_STAT_LINK_UP : Fld := ⟨0x140008, 4, 1⟩
abbrev F.TWN_STAT_P_OK : Fld := ⟨0x140008, 5, 1⟩
abbrev F.TWN_STAT_READY_SB : Fld := ⟨0x140008, 6, 1⟩
abbrev F.TWN_STAT_P_READY : Fld := ⟨0x140008, 7, 1⟩
abbrev F.TWN_STAT_ACT_IN : Fld := ⟨0x140008, 8, 1⟩
abbrev F.TWN_STAT_SIG_MISMATCH : Fld := ⟨0x140008, 9, 1⟩
abbrev F.TWN_STAT_FIT_ERR : Fld := ⟨0x140008, 10, 1⟩
abbrev F.TWN_STAT_LOSS : Fld := ⟨0x140008, 11, 1⟩
abbrev F.TWN_STAT_TAKEOVER : Fld := ⟨0x140008, 12, 1⟩
abbrev F.TWN_STAT_HO_DONE : Fld := ⟨0x140008, 13, 1⟩
abbrev F.TWN_STAT_HO_FAIL : Fld := ⟨0x140008, 14, 1⟩
abbrev F.TWN_STAT_CONFLICT : Fld := ⟨0x140008, 15, 1⟩
abbrev F.TWN_STAT_CAUSE : Fld := ⟨0x140008, 16, 4⟩
abbrev F.TWN_SIG_VAL : Fld := ⟨0x14000C, 0, 32⟩
abbrev F.TWN_PSIG_VAL : Fld := ⟨0x140010, 0, 32⟩
abbrev F.TWN_TOFS_VAL : Fld := ⟨0x140014, 0, 32⟩
abbrev F.TWN_CNT_MISS : Fld := ⟨0x140018, 0, 16⟩
abbrev F.TWN_CNT_REC_ERR : Fld := ⟨0x140018, 16, 16⟩
abbrev F.TWN_REC_VAL : Fld := ⟨0x14001C, 0, 32⟩
abbrev F.TWN_HO_VAL : Fld := ⟨0x140020, 0, 32⟩
abbrev F.TWN_BULK_OFS_OFS : Fld := ⟨0x140024, 4, 19⟩
abbrev F.TWN_BULK_LEN_LEN : Fld := ⟨0x140028, 4, 20⟩
abbrev F.TWN_RET_FREE_S : Fld := ⟨0x14002C, 0, 10⟩
abbrev F.MTS_STAT_PERMIT : Fld := ⟨0x150000, 0, 1⟩
abbrev F.MTS_STAT_BLOCK_ALL : Fld := ⟨0x150000, 1, 1⟩
abbrev F.MTS_STAT_TRIP : Fld := ⟨0x150000, 2, 4⟩
abbrev F.MTS_STAT_CONFIRMED : Fld := ⟨0x150000, 6, 1⟩
abbrev F.MTS_STAT_LOCK : Fld := ⟨0x150000, 7, 1⟩
abbrev F.MTS_STAT_BS_OK : Fld := ⟨0x150000, 8, 1⟩
abbrev F.MTS_STAT_SM_OK : Fld := ⟨0x150000, 9, 1⟩
abbrev F.MTS_STAT_FTM : Fld := ⟨0x150000, 10, 1⟩
abbrev F.MTS_STAT_PARAM_ERR : Fld := ⟨0x150000, 11, 1⟩
abbrev F.MTS_STAT_CONF_ERR : Fld := ⟨0x150000, 12, 1⟩
abbrev F.MTS_FUNC_DEMAND : Fld := ⟨0x150004, 0, 8⟩
abbrev F.MTS_FUNC_DISC : Fld := ⟨0x150004, 8, 8⟩
abbrev F.MTS_FUNC_TPFAIL : Fld := ⟨0x150004, 16, 8⟩
abbrev F.MTS_IN_LEVEL : Fld := ⟨0x150008, 0, 16⟩
abbrev F.MTS_CAUSE_SRC : Fld := ⟨0x15000C, 0, 6⟩
abbrev F.MTS_CMD_RESET : Fld := ⟨0x150010, 0, 1⟩
abbrev F.MTS_CMD_TRIP : Fld := ⟨0x150010, 1, 1⟩
abbrev F.MTS_CMD_UNLOCK : Fld := ⟨0x150010, 2, 1⟩
abbrev F.MTS_CMD_KEY : Fld := ⟨0x150010, 16, 16⟩
abbrev F.MTS_CHK_VAL : Fld := ⟨0x150014, 0, 32⟩
abbrev F.MTS_CONFIRM_VAL : Fld := ⟨0x150018, 0, 32⟩
abbrev F.MTS_SMSTAT_ERR : Fld := ⟨0x15001C, 0, 16⟩
abbrev F.MTS_SMSTAT_SMB : Fld := ⟨0x15001C, 16, 8⟩
abbrev F.MTS_SMSTAT_TIMEOUT : Fld := ⟨0x15001C, 24, 1⟩
abbrev F.MTS_SMSTAT_SYNC : Fld := ⟨0x15001C, 25, 1⟩
abbrev F.MTS_BS_RUN : Fld := ⟨0x150020, 0, 1⟩
abbrev F.MTS_BS_HALTED : Fld := ⟨0x150020, 1, 1⟩
abbrev F.MTS_BS_WD_FAIL : Fld := ⟨0x150020, 2, 1⟩
abbrev F.MTS_BS_DIVERGE : Fld := ⟨0x150020, 3, 1⟩
abbrev F.MTS_BS_IMG_ERR : Fld := ⟨0x150020, 4, 1⟩
abbrev F.MTS_BSDEM_DEM : Fld := ⟨0x150024, 0, 8⟩
abbrev F.MTS_BSDEM_NDEM : Fld := ⟨0x150024, 8, 8⟩
abbrev F.MTS_BSDEM_SMB : Fld := ⟨0x150024, 16, 8⟩
abbrev F.MTS_BSDEM_NSMB : Fld := ⟨0x150024, 24, 8⟩
abbrev F.CCD_CTL_CORES : Fld := ⟨0x160000, 0, 8⟩
abbrev F.CCD_SWREP_LINE : Fld := ⟨0x160004, 0, 3⟩
abbrev F.CCD_SWREP_DETAIL : Fld := ⟨0x160004, 8, 22⟩
abbrev F.CCD_STAT0_LINES : Fld := ⟨0x160008, 0, 32⟩
abbrev F.CCD_STAT1_LINES : Fld := ⟨0x16000C, 0, 32⟩
abbrev F.CCD_SUM_ERR : Fld := ⟨0x160010, 0, 1⟩
abbrev F.CCD_SUM_TRIPCLASS : Fld := ⟨0x160010, 1, 1⟩
abbrev F.CCD_SUM_FIRST : Fld := ⟨0x160010, 8, 6⟩
abbrev F.CCD_LOGHEAD_NEXT : Fld := ⟨0x160014, 0, 12⟩
abbrev F.CCD_LOGTOT_VAL : Fld := ⟨0x160018, 0, 32⟩
abbrev F.CCD_LOGOVW_VAL : Fld := ⟨0x16001C, 0, 32⟩
abbrev F.CCD_SUPP_VAL : Fld := ⟨0x160020, 0, 32⟩
abbrev F.CCD_LIDX_INDEX : Fld := ⟨0x160024, 0, 12⟩
abbrev F.CCD_INJ_TARGET : Fld := ⟨0x160038, 0, 3⟩
abbrev F.CCD_INJ_ARM : Fld := ⟨0x160038, 3, 1⟩
abbrev F.CCD_INJ_BANK : Fld := ⟨0x160038, 4, 3⟩
abbrev F.CCD_INJ_DONE : Fld := ⟨0x160038, 8, 1⟩
abbrev F.MOD_CTL_REBOOT : Fld := ⟨0x1B0000, 0, 1⟩
abbrev F.MOD_CTL_CONFIRM : Fld := ⟨0x1B0000, 1, 1⟩
abbrev F.MOD_CTL_HOST_GO : Fld := ⟨0x1B0000, 2, 1⟩
abbrev F.MOD_STAT_READY : Fld := ⟨0x1B0004, 0, 1⟩
abbrev F.MOD_STAT_PRESENT : Fld := ⟨0x1B0004, 1, 1⟩
abbrev F.MOD_STAT_RETAIN_VALID : Fld := ⟨0x1B0004, 2, 1⟩
abbrev F.MOD_STAT_TIME_KEPT : Fld := ⟨0x1B0004, 3, 1⟩
abbrev F.MOD_STAT_TIME_TRACEABLE : Fld := ⟨0x1B0004, 4, 1⟩
abbrev F.MOD_STAT_BOOTED : Fld := ⟨0x1B0004, 5, 1⟩
abbrev F.MOD_STAT_BOOT_SLOT : Fld := ⟨0x1B0004, 6, 1⟩
abbrev F.MOD_STAT_BOOT_SRC : Fld := ⟨0x1B0004, 7, 1⟩
abbrev F.MOD_STAT_HWC : Fld := ⟨0x1B0004, 8, 4⟩
abbrev F.MOD_STAT_PWR_WARN : Fld := ⟨0x1B0004, 12, 1⟩
abbrev F.MOD_STAT_BAK_WARN : Fld := ⟨0x1B0004, 13, 1⟩
abbrev F.MOD_STAT_TEMP_WARN : Fld := ⟨0x1B0004, 14, 1⟩
abbrev F.MOD_BOOT_PREF : Fld := ⟨0x1B0008, 0, 1⟩
abbrev F.MOD_BOOT_SRC : Fld := ⟨0x1B0008, 1, 1⟩
abbrev F.MOD_BOOT_TRIES_A : Fld := ⟨0x1B0008, 2, 2⟩
abbrev F.MOD_BOOT_TRIES_B : Fld := ⟨0x1B0008, 4, 2⟩
abbrev F.MOD_BOOT_CONF_S : Fld := ⟨0x1B0008, 8, 8⟩
abbrev F.MOD_COMPAT_CODE : Fld := ⟨0x1B000C, 0, 4⟩
abbrev F.MOD_COMPAT_SLOT : Fld := ⟨0x1B000C, 4, 1⟩
abbrev F.MOD_COMPAT_OK : Fld := ⟨0x1B000C, 5, 1⟩
abbrev F.MOD_IMG_IMG_VER : Fld := ⟨0x1B0010, 0, 16⟩
abbrev F.MOD_IMG_HRN_MIN : Fld := ⟨0x1B0010, 16, 16⟩
abbrev F.MOD_TAG_VAL : Fld := ⟨0x1B0014, 0, 32⟩
abbrev F.MOD_TAG_ALT_VAL : Fld := ⟨0x1B0018, 0, 32⟩
abbrev F.MOD_PWR_VIN_MV : Fld := ⟨0x1B001C, 0, 16⟩
abbrev F.MOD_PWR_IIN_MA : Fld := ⟨0x1B001C, 16, 16⟩
abbrev F.MOD_BAK_VBAK_MV : Fld := ⟨0x1B0020, 0, 16⟩
abbrev F.MOD_BAK_CHG : Fld := ⟨0x1B0020, 16, 8⟩
abbrev F.MOD_BAK_TRACE_S : Fld := ⟨0x1B0020, 24, 8⟩
abbrev F.MOD_TEMP_TJ_MAX : Fld := ⟨0x1B0024, 0, 12⟩
abbrev F.MOD_TEMP_WARN_C : Fld := ⟨0x1B0024, 16, 8⟩
abbrev F.MOD_OUTAGE_VAL : Fld := ⟨0x1B0028, 0, 32⟩
abbrev F.MOD_FSEC_SECTOR : Fld := ⟨0x1B002C, 0, 10⟩
abbrev F.MOD_FSRC_ADDR : Fld := ⟨0x1B0030, 6, 19⟩
abbrev F.MOD_FCMD_ERASE : Fld := ⟨0x1B0034, 0, 1⟩
abbrev F.MOD_FCMD_PROG : Fld := ⟨0x1B0034, 1, 1⟩
abbrev F.MOD_FCMD_BUSY : Fld := ⟨0x1B0034, 2, 1⟩
abbrev F.MOD_FCMD_DONE : Fld := ⟨0x1B0034, 3, 1⟩
abbrev F.MOD_FCMD_ERR : Fld := ⟨0x1B0034, 4, 4⟩
abbrev F.HST_STAT_SPEED : Fld := ⟨0x180000, 0, 4⟩
abbrev F.HST_STAT_WIDTH : Fld := ⟨0x180000, 4, 4⟩
abbrev F.HST_STAT_BME : Fld := ⟨0x180000, 8, 1⟩
abbrev F.HST_STAT_MSIX_EN : Fld := ⟨0x180000, 9, 1⟩
abbrev F.HST_STAT_ABORT : Fld := ⟨0x180000, 10, 1⟩
abbrev F.HST_STAT_LATE_CPL : Fld := ⟨0x180000, 16, 16⟩
abbrev F.HST_WIN_BASE : Fld := ⟨0x180004, 0, 12⟩
abbrev F.HST_DOORBELL_RING : Fld := ⟨0x180008, 0, 8⟩
abbrev F.HST_FWINT_VEC : Fld := ⟨0x18000C, 0, 6⟩
abbrev F.HST_TICK_DIV : Fld := ⟨0x180010, 0, 16⟩
abbrev F.HST_DDESC_ADDR : Fld := ⟨0x180100, 5, 20⟩
abbrev F.HST_DCMD_START : Fld := ⟨0x180104, 0, 1⟩
abbrev F.HST_DCMD_ABORT : Fld := ⟨0x180104, 1, 1⟩
abbrev F.HST_DSTAT_BUSY : Fld := ⟨0x180108, 0, 1⟩
abbrev F.HST_DSTAT_DONE : Fld := ⟨0x180108, 1, 1⟩
abbrev F.HST_DSTAT_CODE : Fld := ⟨0x180108, 4, 4⟩
abbrev F.ETH_CTL_EN : Fld := ⟨0x190000, 0, 1⟩
abbrev F.ETH_CTL_LINK : Fld := ⟨0x190000, 1, 1⟩
abbrev F.ETH_CTL_LINK_CHG : Fld := ⟨0x190000, 2, 1⟩
abbrev F.ETH_MAC_LO_VAL : Fld := ⟨0x190004, 0, 32⟩
abbrev F.ETH_MAC_HI_MAC : Fld := ⟨0x190008, 0, 16⟩
abbrev F.ETH_RXBASE_ADDR : Fld := ⟨0x19000C, 5, 20⟩
abbrev F.ETH_RXPTR_SIZE : Fld := ⟨0x190010, 0, 12⟩
abbrev F.ETH_RXPTR_TAIL : Fld := ⟨0x190010, 13, 12⟩
abbrev F.ETH_TXBASE_ADDR : Fld := ⟨0x190014, 5, 20⟩
abbrev F.ETH_TXPTR_SIZE : Fld := ⟨0x190018, 0, 12⟩
abbrev F.ETH_TXPTR_TAIL : Fld := ⟨0x190018, 13, 12⟩
abbrev F.ETH_CNT_RX_DROP : Fld := ⟨0x19001C, 0, 16⟩
abbrev F.ETH_CNT_FCS_ERR : Fld := ⟨0x19001C, 16, 16⟩
abbrev F.ETH_SAFE_SAFE_DROP : Fld := ⟨0x190020, 0, 16⟩
abbrev F.ETH_HEAD_RX_HEAD : Fld := ⟨0x190024, 0, 12⟩
abbrev F.ETH_HEAD_TX_HEAD : Fld := ⟨0x190024, 16, 12⟩
abbrev F.PWM_CTL_EN : Fld := ⟨0x1A0000, 0, 12⟩
abbrev F.PWM_CTL_FRZ_DBG : Fld := ⟨0x1A0000, 12, 1⟩
abbrev F.PWM_CTL_DBG_CORES : Fld := ⟨0x1A0000, 16, 8⟩
abbrev F.PWM_FLT_FLT_EN : Fld := ⟨0x1A0004, 0, 12⟩
abbrev F.PWM_FLT_FLT : Fld := ⟨0x1A0004, 12, 1⟩
abbrev F.PWM_FLT_PIN : Fld := ⟨0x1A0004, 13, 1⟩
abbrev F.PWM_FLT_FILT : Fld := ⟨0x1A0004, 16, 8⟩
abbrev F.PWM_BOOT_BOOT_T : Fld := ⟨0x1A0008, 0, 7⟩
abbrev F.PWM_BOOT_OFF : Fld := ⟨0x1A0008, 8, 8⟩
abbrev F.PWM_STAT_HIZ : Fld := ⟨0x1A000C, 0, 12⟩
abbrev F.PWM_STAT_FROZEN : Fld := ⟨0x1A000C, 12, 1⟩
abbrev F.PWM_PER_PER : Fld := ⟨0x1A0100, 0, 24⟩
abbrev F.PWM_DUTY_DUTY : Fld := ⟨0x1A0104, 0, 24⟩
abbrev F.PWM_PH_PH : Fld := ⟨0x1A0108, 0, 24⟩
abbrev F.PWM_CFG_POL : Fld := ⟨0x1A010C, 0, 1⟩
abbrev F.PWM_CFG_SYNC_EN : Fld := ⟨0x1A010C, 1, 1⟩
abbrev F.PWM_CFG_BOOT_EN : Fld := ⟨0x1A010C, 2, 1⟩
abbrev F.PWM_CFG_SYNC_EV : Fld := ⟨0x1A010C, 4, 4⟩
abbrev F.HRN_STAGE_VAL : Fld := ⟨0x81800, 0, 32⟩
abbrev F.HRN_ST_VAL : Fld := ⟨0x84000, 0, 32⟩
abbrev F.HRN_BANK0_VAL : Fld := ⟨0x88000, 0, 32⟩
abbrev F.HRN_PAGE0_VAL : Fld := ⟨0x90000, 0, 32⟩
abbrev F.HIV_AUD_COUNT : Fld := ⟨0x100054, 0, 22⟩
abbrev F.HIV_GW_W0 : Fld := ⟨0x100080, 0, 8⟩
abbrev F.HIV_GW_W1 : Fld := ⟨0x100080, 8, 8⟩
abbrev F.HIV_GW_W2 : Fld := ⟨0x100080, 16, 8⟩
abbrev F.HIV_GW_W3 : Fld := ⟨0x100080, 24, 8⟩
abbrev F.HIV_YIELD_SELF_YIELD : Fld := ⟨0x100188, 0, 1⟩
abbrev F.MTS_PARAM_VAL : Fld := ⟨0x151000, 0, 32⟩
abbrev F.MTS_BSMEM_VAL : Fld := ⟨0x158000, 0, 32⟩
abbrev F.CCD_LOG0_TIME_LO : Fld := ⟨0x160028, 0, 32⟩
abbrev F.CCD_LOG1_TIME_HI : Fld := ⟨0x16002C, 0, 32⟩
abbrev F.CCD_LOG2_DETAIL : Fld := ⟨0x160030, 0, 22⟩
abbrev F.CCD_LOG2_LINE : Fld := ⟨0x160030, 24, 6⟩
abbrev F.CCD_LOG2_VALID : Fld := ⟨0x160030, 31, 1⟩
abbrev F.CCD_LOG3_SWEEP : Fld := ⟨0x160034, 0, 32⟩
abbrev F.CCD_RCT_CLASS0 : Fld := ⟨0x160100, 0, 3⟩
abbrev F.CCD_RCT_CLASS1 : Fld := ⟨0x160100, 8, 3⟩
abbrev F.CCD_RCT_CLASS2 : Fld := ⟨0x160100, 16, 3⟩
abbrev F.CCD_RCT_CLASS3 : Fld := ⟨0x160100, 24, 3⟩
abbrev F.HST_MSIX_VAL : Fld := ⟨0x188000, 0, 32⟩

/-! Descriptors, block by block (Table 1.7). -/

/-- The registers of the GCR block. -/
def regDescsGcr : List RegDesc :=
  [
    ⟨0x0, 0x0, 1, 0x0, 1, 0x6144A02, 0x0, 0x0, 0x0, 0x0, 0x0⟩,  -- GCR_ID
    ⟨0x4, 0x0, 1, 0x0, 1, 0x0, 0x0, 0x0, 0x0, 0x0, 0x0⟩,  -- GCR_SVC
    ⟨0x8, 0x0, 1, 0x0, 1, 0x0, 0x0, 0x0, 0x0, 0x0, 0x0⟩,  -- GCR_UNIT_FAIL
    ⟨0xC, 0x0, 1, 0x0, 1, 0xFF, 0x0, 0x0, 0x0, 0x0, 0x0⟩,  -- GCR_BANK
    ⟨0x10, 0x0, 1, 0x0, 1, 0x108, 0x1FF, 0x0, 0x200, 0x0, 0x0⟩,  -- GCR_SCRUB
    ⟨0x14, 0x0, 1, 0x0, 1, 0x0, 0x0, 0x0, 0x0, 0x0, 0x0⟩,  -- GCR_ECC_CE
    ⟨0x18, 0x0, 1, 0x0, 1, 0x0, 0x0, 0x0, 0x80000000, 0x0, 0x0⟩   -- GCR_ECC_UE
  ]

/-- The registers of the FFY block. -/
def regDescsFfy : List RegDesc :=
  [
    ⟨0x10000, 0x0, 1, 0x0, 1, 0x6400, 0xFF04, 0x0, 0x0, 0x3, 0x0⟩,  -- FFY_CTL
    ⟨0x10004, 0x0, 1, 0x0, 1, 0x1, 0x0, 0x0, 0xC8, 0x0, 0x0⟩,  -- FFY_STAT
    ⟨0x10008, 0x0, 1, 0x0, 1, 0x0, 0x0, 0x0, 0x0, 0x0, 0x0⟩,  -- FFY_NOW_LO
    ⟨0x1000C, 0x0, 1, 0x0, 1, 0x0, 0x0, 0x0, 0x0, 0x0, 0x0⟩,  -- FFY_NOW_HI
    ⟨0x10010, 0x0, 1, 0x0, 1, 0x0, 0xFFFFFFFF, 0x0, 0x0, 0x0, 0x0⟩,  -- FFY_RATE
    ⟨0x10014, 0x0, 1, 0x0, 1, 0x0, 0x0, 0x0, 0x0, 0x0, 0x0⟩,  -- FFY_RATE_ACT
    ⟨0x10018, 0x0, 1, 0x0, 1, 0x0, 0xFFFFFFFF, 0x0, 0x0, 0x0, 0x0⟩,  -- FFY_STEP_LO
    ⟨0x1001C, 0x0, 1, 0x0, 1, 0x0, 0xFFFFFFFF, 0x0, 0x0, 0x0, 0x0⟩,  -- FFY_STEP_HI
    ⟨0x10020, 0x0, 1, 0x0, 1, 0x301, 0xFC0, 0x3F, 0x0, 0x0, 0x0⟩,  -- FFY_PTP
    ⟨0x10024, 0x0, 1, 0x0, 1, 0x100, 0x0, 0x7F7F, 0x0, 0x30000, 0x0⟩,  -- FFY_DOM
    ⟨0x10028, 0x0, 1, 0x0, 1, 0x0, 0x0, 0x0, 0x0, 0x0, 0x0⟩,  -- FFY_TXTS_HDR
    ⟨0x1002C, 0x0, 1, 0x0, 1, 0x0, 0x0, 0x0, 0x0, 0x0, 0x0⟩,  -- FFY_TXTS_LO
    ⟨0x10030, 0x0, 1, 0x0, 1, 0x0, 0x0, 0x0, 0x0, 0x0, 0x0⟩,  -- FFY_TXTS_HI
    ⟨0x10100, 0x10, 16, 0x0, 1, 0x0, 0xFFFFFFFF, 0x0, 0x0, 0x0, 0x0⟩,  -- FFY_EV_T
    ⟨0x10104, 0x10, 16, 0x0, 1, 0x0, 0xFFFFFFFF, 0x0, 0x0, 0x0, 0x0⟩,  -- FFY_EV_PER
    ⟨0x10108, 0x10, 16, 0x0, 1, 0x0, 0xFFF3F7, 0x0, 0x8, 0x0, 0x0⟩,  -- FFY_EV_CTL
    ⟨0x10200, 0x10, 8, 0x0, 1, 0x0, 0xF, 0x0, 0x30, 0x0, 0x0⟩,  -- FFY_CAP_CTL
    ⟨0x10204, 0x10, 8, 0x0, 1, 0x0, 0x0, 0x0, 0x0, 0x0, 0x0⟩,  -- FFY_CAP_LO
    ⟨0x10208, 0x10, 8, 0x0, 1, 0x0, 0x0, 0x0, 0x0, 0x0, 0x0⟩   -- FFY_CAP_HI
  ]

/-- The registers of the CRK block. -/
def regDescsCrk : List RegDesc :=
  [
    ⟨0x20000, 0x0, 1, 0x0, 1, 0x0, 0x1, 0x0, 0x0, 0x0, 0x0⟩,  -- CRK_CTL
    ⟨0x20004, 0x0, 1, 0x0, 1, 0x7D0, 0x7FFF, 0x0, 0x0, 0x0, 0x0⟩,  -- CRK_PERIOD
    ⟨0x20008, 0x0, 1, 0x0, 1, 0x0, 0xFFFFFFFF, 0x0, 0x0, 0x0, 0x0⟩,  -- CRK_EPOCH_LO
    ⟨0x2000C, 0x0, 1, 0x0, 1, 0x0, 0xFFFFFFFF, 0x0, 0x0, 0x0, 0x0⟩,  -- CRK_EPOCH_HI
    ⟨0x20010, 0x0, 1, 0x0, 1, 0x0, 0x0, 0x0, 0x0, 0x0, 0x0⟩,  -- CRK_SWEEP
    ⟨0x20014, 0x0, 1, 0x0, 1, 0x3E8, 0x7FFF, 0x0, 0x0, 0x0, 0x0⟩,  -- CRK_WIN
    ⟨0x20018, 0x0, 1, 0x0, 1, 0x0, 0x3F0000, 0x0, 0x0, 0x0, 0x0⟩,  -- CRK_STATE
    ⟨0x2001C, 0x0, 1, 0x0, 1, 0x0, 0x0, 0x0, 0x0, 0x0, 0xF⟩,  -- CRK_CMD
    ⟨0x20020, 0x0, 1, 0x0, 1, 0x0, 0x0, 0x0, 0x2, 0x0, 0x0⟩,  -- CRK_CMD_STAT
    ⟨0x20024, 0x0, 1, 0x0, 1, 0x30000, 0xF0000, 0x0, 0x1000000, 0x0, 0x0⟩,  -- CRK_LATE
    ⟨0x20028, 0x0, 1, 0x0, 1, 0x0, 0x0, 0x73F, 0x0, 0x0, 0x0⟩,  -- CRK_ARMS
    ⟨0x2002C, 0x0, 1, 0x0, 1, 0x6E5A, 0x0, 0xFFFF, 0x0, 0x0, 0x0⟩,  -- CRK_BAND
    ⟨0x20030, 0x0, 1, 0x0, 1, 0xA1419, 0x0, 0xFFFFFF, 0x0, 0x0, 0x0⟩,  -- CRK_FLY
    ⟨0x20034, 0x0, 1, 0x0, 1, 0x0, 0x0, 0xFFFF, 0x0, 0x0, 0x0⟩,  -- CRK_VBASE
    ⟨0x20038, 0x0, 1, 0x0, 1, 0x0, 0xFFFFFFFF, 0x0, 0x0, 0x0, 0x0⟩,  -- CRK_DBAT_LO
    ⟨0x2003C, 0x0, 1, 0x0, 1, 0x0, 0xFFFFFFFF, 0x0, 0x0, 0x0, 0x0⟩   -- CRK_DBAT_HI
  ]

/-- The registers of the SWM block. -/
def regDescsSwm : List RegDesc :=
  [
    ⟨0x40000, 0x4000, 6, 0x0, 1, 0x3, 0x1F, 0x0, 0x0, 0x0, 0x0⟩,  -- SWM_CTL
    ⟨0x40004, 0x4000, 6, 0x0, 1, 0x0, 0x0, 0x7FF07FF, 0x0, 0x0, 0x0⟩,  -- SWM_CFG
    ⟨0x40008, 0x4000, 6, 0x0, 1, 0x60080032, 0x7FFFFFFF, 0x0, 0x0, 0x0, 0x0⟩,  -- SWM_SEL
    ⟨0x4000C, 0x4000, 6, 0x0, 1, 0x80005, 0xFFFFFF, 0x0, 0x0, 0x0, 0x0⟩,  -- SWM_DIR
    ⟨0x40010, 0x4000, 6, 0x0, 1, 0x7D0, 0xFFFF, 0x0, 0x0, 0x0, 0x0⟩,  -- SWM_PRED
    ⟨0x40014, 0x4000, 6, 0x0, 1, 0x32, 0x0, 0x3FF, 0x0, 0x0, 0x0⟩,  -- SWM_EDGE
    ⟨0x40018, 0x4000, 6, 0x0, 1, 0x14, 0x3FF, 0x0, 0x0, 0x0, 0x0⟩,  -- SWM_PRE
    ⟨0x4001C, 0x4000, 6, 0x0, 1, 0x0, 0x0, 0x0, 0x7, 0x0, 0x0⟩,  -- SWM_STAT
    ⟨0x40020, 0x4000, 6, 0x0, 1, 0x0, 0x0, 0x0, 0x0, 0x0, 0x0⟩,  -- SWM_COUNT
    ⟨0x40024, 0x4000, 6, 0x0, 1, 0x0, 0x0, 0x0, 0x0, 0x0, 0x0⟩,  -- SWM_FRAC
    ⟨0x40028, 0x4000, 6, 0x0, 1, 0x0, 0x0, 0x0, 0x0, 0x0, 0x0⟩,  -- SWM_VREF
    ⟨0x4002C, 0x4000, 6, 0x0, 1, 0x0, 0x0, 0x0, 0x0, 0x0, 0x0⟩,  -- SWM_IARM
    ⟨0x40030, 0x4000, 6, 0x0, 1, 0x0, 0x0, 0x0, 0x0, 0x0, 0x0⟩,  -- SWM_VERR
    ⟨0x40034, 0x4000, 6, 0x0, 1, 0x0, 0x0, 0x0, 0x0, 0x0, 0x0⟩,  -- SWM_EVT
    ⟨0x40038, 0x4000, 6, 0x0, 1, 0x0, 0x0, 0x0, 0xE, 0x1, 0x0⟩,  -- SWM_TBL
    ⟨0x4003C, 0x4000, 6, 0x0, 1, 0x0, 0x0, 0x0, 0x0, 0x1, 0x0⟩,  -- SWM_HOOK
    ⟨0x40040, 0x4000, 6, 0x0, 1, 0x0, 0x0, 0x0, 0x0, 0x1, 0x0⟩,  -- SWM_TEST
    ⟨0x58000, 0x0, 1, 0x0, 1, 0x40, 0x0, 0x7F, 0x0, 0x0, 0x0⟩,  -- SWM_HOLD
    ⟨0x58004, 0x0, 1, 0x0, 1, 0x400, 0xF02, 0x0, 0xC, 0x1, 0x0⟩,  -- SWM_CAL
    ⟨0x58008, 0x0, 1, 0x0, 1, 0x0, 0x0, 0x0, 0x10000, 0x0, 0x0⟩,  -- SWM_CAL_STAT
    ⟨0x58010, 0x0, 1, 0x0, 1, 0x14, 0x1F, 0x0, 0x0, 0x0, 0x0⟩,  -- SWM_RFX
    ⟨0x58014, 0x0, 1, 0x0, 1, 0x68, 0x0, 0xFFFF, 0x0, 0x0, 0x0⟩,  -- SWM_FESC
    ⟨0x58100, 0x20, 6, 0x0, 1, 0x0, 0x0, 0x0, 0x0, 0x0, 0x0⟩,  -- SWM_ECNT
    ⟨0x58104, 0x20, 6, 0x0, 1, 0x0, 0x0, 0x0, 0x0, 0x0, 0x0⟩,  -- SWM_RCNT
    ⟨0x58108, 0x20, 6, 0x0, 1, 0x4678, 0x0, 0xFFFF, 0x0, 0x0, 0x0⟩,  -- SWM_CFTHR
    ⟨0x5810C, 0x20, 6, 0x0, 1, 0x0, 0x0, 0x0, 0x0, 0x0, 0x0⟩,  -- SWM_FTIME
    ⟨0x58110, 0x20, 6, 0x0, 1, 0x0, 0x0, 0x0, 0x0, 0x0, 0x0⟩,  -- SWM_EDGES
    ⟨0x60000, 0x4, 6144, 0x0, 1, 0x0, 0x0, 0x0, 0x0, 0x800, 0x0⟩   -- SWM_CF
  ]

/-- The registers of the HRN block. The reserved words 0x2010 to 0x3FFF of a program bank hold what is written
(DESIGN CHOICE: assumption 301). -/
def regDescsHrn : List RegDesc :=
  [
    ⟨0x80000, 0x0, 1, 0x0, 1, 0x0, 0x1, 0x0, 0x0, 0x6, 0x0⟩,  -- HRN_CTL
    ⟨0x80004, 0x0, 1, 0x0, 1, 0x0, 0x4, 0x0, 0x8, 0x1, 0x0⟩,  -- HRN_BANK
    ⟨0x80008, 0x0, 1, 0x0, 1, 0x0, 0x0, 0x0, 0x4, 0x1, 0x0⟩,  -- HRN_PAR
    ⟨0x8000C, 0x0, 1, 0x0, 1, 0x0, 0x0, 0x0, 0x1F, 0x0, 0x0⟩,  -- HRN_STAT
    ⟨0x80010, 0x0, 1, 0x0, 1, 0x0, 0x0, 0x0, 0xFFFFFFFF, 0x0, 0x0⟩,  -- HRN_SAT_LANES
    ⟨0x80014, 0x0, 1, 0x0, 1, 0x0, 0x0, 0x0, 0xFFFFFFFF, 0x0, 0x0⟩,  -- HRN_GOV_LANES
    ⟨0x80018, 0x0, 1, 0x0, 1, 0x0, 0x0, 0x0, 0x0, 0x0, 0x0⟩,  -- HRN_TIME
    ⟨0x8001C, 0x0, 1, 0x0, 1, 0x0, 0x0, 0x0, 0x0, 0x0, 0x0⟩,  -- HRN_CNT
    ⟨0x80020, 0x0, 1, 0x0, 1, 0x0, 0x0, 0x0, 0x0, 0x0, 0x0⟩,  -- HRN_PVER
    ⟨0x80024, 0x0, 1, 0x0, 1, 0x0, 0x0, 0x0, 0x0, 0x0, 0x0⟩,  -- HRN_PTAG
    ⟨0x80028, 0x0, 1, 0x0, 1, 0x0, 0x0, 0x0, 0x0, 0x0, 0x0⟩,  -- HRN_SUP
    ⟨0x80030, 0x4, 4, 0x0, 1, 0x0, 0x0, 0x0, 0x0, 0x0, 0x0⟩,  -- HRN_REGION
    ⟨0x81000, 0x4, 256, 0x0, 1, 0x0, 0x0, 0x0, 0x0, 0x0, 0x0⟩,  -- HRN_IN
    ⟨0x81800, 0x4, 96, 0x0, 1, 0x0, 0xFFFFFFFF, 0x0, 0x0, 0x0, 0x0⟩,  -- HRN_STAGE
    ⟨0x82000, 0x4, 256, 0x0, 1, 0x0, 0x0, 0x0, 0x0, 0x0, 0x0⟩,  -- HRN_OUT
    ⟨0x84000, 0x4, 4096, 0x0, 1, 0x0, 0xFFFFFFFF, 0x0, 0x0, 0x0, 0x0⟩,  -- HRN_ST
    ⟨0x88000, 0x4, 8192, 0x0, 1, 0x0, 0xFFFFFFFF, 0x0, 0x0, 0x0, 0x0⟩,  -- HRN_BANK0
    ⟨0x90000, 0x4, 16384, 0x0, 1, 0x0, 0xFFFFFFFF, 0x0, 0x0, 0x0, 0x0⟩   -- HRN_PAGE0
  ]

/-- The registers of the MDG block. -/
def regDescsMdg : List RegDesc :=
  [
    ⟨0xA0000, 0x0, 1, 0x0, 1, 0x10000, 0x1FFFF, 0x0, 0x0, 0x0, 0x0⟩,  -- MDG_CTL
    ⟨0xA0004, 0x0, 1, 0x0, 1, 0x0, 0x0, 0x0, 0xFF0000, 0x0, 0x0⟩,  -- MDG_STAT
    ⟨0xA0008, 0x0, 1, 0x0, 1, 0x0, 0x0, 0x0, 0x0, 0xFFFF, 0x0⟩,  -- MDG_SWTRIG
    ⟨0xA000C, 0x0, 1, 0x0, 1, 0x1308, 0x0, 0x1FFF, 0x0, 0x0, 0x0⟩,  -- MDG_PLAUS
    ⟨0xA0010, 0x0, 1, 0x0, 1, 0x64, 0xFFFF, 0x0, 0x0, 0x0, 0x0⟩,  -- MDG_CALINT
    ⟨0xA0014, 0x0, 1, 0x0, 1, 0x0, 0x0, 0x0, 0x0, 0xFFFF, 0x0⟩,  -- MDG_REARM
    ⟨0xA0100, 0x20, 16, 0x0, 1, 0x100, 0x1FF7, 0x3F0000, 0x0, 0x0, 0x0⟩,  -- MDG_CFG
    ⟨0xA0104, 0x20, 16, 0x0, 1, 0x40, 0xFFFF, 0x0, 0x0, 0x0, 0x0⟩,  -- MDG_DLY
    ⟨0xA0108, 0x20, 16, 0x0, 1, 0x0, 0xFFFF, 0x0, 0x0, 0x0, 0x0⟩,  -- MDG_SEQ
    ⟨0xA010C, 0x20, 16, 0x0, 1, 0x0, 0x0, 0x0, 0x2000000, 0x0, 0x0⟩,  -- MDG_DATA
    ⟨0xA0110, 0x20, 16, 0x0, 1, 0x0, 0x0, 0x0, 0x0, 0x0, 0x0⟩,  -- MDG_CNT
    ⟨0xA0114, 0x20, 16, 0x0, 1, 0xC0, 0x0, 0x0, 0x109, 0x0, 0x0⟩,  -- MDG_CSTAT
    ⟨0xA0118, 0x20, 16, 0x0, 1, 0x0, 0x0, 0x0, 0x0, 0x0, 0x0⟩   -- MDG_STAMP
  ]

/-- The registers of the LCW block. -/
def regDescsLcw : List RegDesc :=
  [
    ⟨0xB0000, 0x0, 1, 0x0, 1, 0x0, 0x3, 0x0, 0x0, 0x0, 0x0⟩,  -- LCW_CTL
    ⟨0xB0004, 0x0, 1, 0x0, 1, 0x0, 0x0, 0x0, 0x7, 0x0, 0x0⟩,  -- LCW_STAT
    ⟨0xB0008, 0x0, 1, 0x0, 1, 0x0, 0x0, 0x0, 0xFFFFFFFF, 0x0, 0x0⟩,  -- LCW_OVR0
    ⟨0xB000C, 0x0, 1, 0x0, 1, 0x0, 0x0, 0x0, 0xFFFFFFFF, 0x0, 0x0⟩,  -- LCW_OVR1
    ⟨0xB0010, 0x0, 1, 0x0, 1, 0x0, 0x0, 0x0, 0x0, 0x0, 0x0⟩,  -- LCW_VALID0
    ⟨0xB0014, 0x0, 1, 0x0, 1, 0x0, 0x0, 0x0, 0x0, 0x0, 0x0⟩,  -- LCW_VALID1
    ⟨0xB0018, 0x0, 1, 0x0, 1, 0x4, 0xFF, 0x0, 0x0, 0x0, 0x0⟩,  -- LCW_CFG
    ⟨0xB0100, 0x10, 64, 0x0, 1, 0x100000, 0x1F1F1FBF, 0x0, 0x0, 0x0, 0x0⟩,  -- LCW_SRC
    ⟨0xB0104, 0x10, 64, 0x0, 1, 0x0, 0xFFFF, 0x0, 0x0, 0x0, 0x0⟩,  -- LCW_OFS
    ⟨0xB0108, 0x10, 64, 0x0, 1, 0x1, 0xFFFFFFFF, 0x0, 0x0, 0x0, 0x0⟩,  -- LCW_GAIN
    ⟨0xB010C, 0x10, 64, 0x0, 1, 0x0, 0x0, 0x0, 0x0, 0x0, 0x0⟩   -- LCW_OUT
  ]

/-- The registers of the DFY block. -/
def regDescsDfy : List RegDesc :=
  [
    ⟨0xC0000, 0x2000, 7, 0x0, 1, 0x2, 0x2, 0x0, 0x0, 0xD, 0x0⟩,  -- DFY_PCTL
    ⟨0xC0004, 0x2000, 7, 0x0, 1, 0x0, 0x0, 0x0, 0x1800, 0x0, 0x0⟩,  -- DFY_PSTAT
    ⟨0xC0008, 0x2000, 7, 0x0, 1, 0x0, 0xFF07FFF7, 0x0, 0x0, 0x0, 0x0⟩,  -- DFY_IMP
    ⟨0xC000C, 0x2000, 7, 0x0, 1, 0x0, 0xFFFFFFFF, 0x0, 0x0, 0x0, 0x0⟩,  -- DFY_IMP_AT
    ⟨0xC0100, 0x2000, 6, 0x20, 8, 0x0, 0x0, 0x0, 0x600, 0x0, 0x0⟩,  -- DFY_LSTAT (ports A0-A5, D0-D7)
    ⟨0xC0104, 0x2000, 6, 0x20, 8, 0x0, 0x0, 0x0, 0x0, 0x0, 0x0⟩,  -- DFY_LERR (ports A0-A5, D0-D7)
    ⟨0xC0108, 0x2000, 6, 0x20, 8, 0x0, 0x0, 0x0, 0x0, 0x0, 0x0⟩,  -- DFY_LPH (ports A0-A5, D0-D7)
    ⟨0xC010C, 0x2000, 6, 0x20, 8, 0x18000000, 0x3F03F7F0, 0x0, 0xE, 0x1, 0x0⟩,  -- DFY_ESCTL (ports A0-A5, D0-D7)
    ⟨0xC0110, 0x2000, 6, 0x20, 8, 0x0, 0x0, 0x0, 0x0, 0x0, 0x0⟩,  -- DFY_ESERR (ports A0-A5, D0-D7)
    ⟨0xC0114, 0x2000, 6, 0x20, 8, 0x0, 0x0, 0x0, 0x0, 0x0, 0x0⟩,  -- DFY_ESBITS (ports A0-A5, D0-D7)
    ⟨0xC0200, 0x2000, 6, 0x0, 1, 0x0, 0x0, 0x0, 0x600, 0x0, 0x0⟩,  -- DFY_LSTAT (CK of A0-A5)
    ⟨0xC0400, 0x2000, 6, 0x0, 1, 0x20000, 0x33FFF, 0x0, 0x0, 0x0, 0x0⟩,  -- DFY_FCFG
    ⟨0xC0404, 0x2000, 6, 0x0, 1, 0x708, 0xFFFF, 0x0, 0x0, 0x0, 0x0⟩,  -- DFY_UPST
    ⟨0xC0408, 0x2000, 6, 0x0, 1, 0x0, 0x0, 0x0, 0x0, 0x0, 0x0⟩,  -- DFY_FSTAT
    ⟨0xC0500, 0x2000, 6, 0x20, 8, 0x0, 0x0, 0x0, 0x0, 0x0, 0x0⟩,  -- DFY_FERR
    ⟨0xC0504, 0x2000, 6, 0x20, 8, 0x0, 0x0, 0x0, 0x0, 0x0, 0x0⟩,  -- DFY_FERR2
    ⟨0xC0508, 0x2000, 6, 0x20, 8, 0x0, 0x0, 0x0, 0x0, 0x0, 0x0⟩,  -- DFY_RFXERR
    ⟨0xC050C, 0x2000, 6, 0x20, 8, 0x0, 0x0, 0x0, 0x0, 0x0, 0x0⟩,  -- DFY_CREDIT
    ⟨0xC0510, 0x2000, 6, 0x20, 8, 0x0, 0x0, 0x0, 0x0, 0x0, 0x0⟩,  -- DFY_NODE
    ⟨0xCC100, 0x0, 1, 0x20, 4, 0x0, 0x0, 0x0, 0x600, 0x0, 0x0⟩,  -- DFY_LSTAT (T.D0-T.D3)
    ⟨0xCC104, 0x0, 1, 0x20, 4, 0x0, 0x0, 0x0, 0x0, 0x0, 0x0⟩,  -- DFY_LERR (T.D0-T.D3)
    ⟨0xCC108, 0x0, 1, 0x20, 4, 0x0, 0x0, 0x0, 0x0, 0x0, 0x0⟩,  -- DFY_LPH (T.D0-T.D3)
    ⟨0xCC10C, 0x0, 1, 0x20, 4, 0x18000000, 0x3F03F7F0, 0x0, 0xE, 0x1, 0x0⟩,  -- DFY_ESCTL (T.D0-T.D3)
    ⟨0xCC110, 0x0, 1, 0x20, 4, 0x0, 0x0, 0x0, 0x0, 0x0, 0x0⟩,  -- DFY_ESERR (T.D0-T.D3)
    ⟨0xCC114, 0x0, 1, 0x20, 4, 0x0, 0x0, 0x0, 0x0, 0x0, 0x0⟩,  -- DFY_ESBITS (T.D0-T.D3)
    ⟨0xCC200, 0x0, 1, 0x0, 1, 0x0, 0x0, 0x0, 0x600, 0x0, 0x0⟩,  -- DFY_LSTAT (T.CK)
    ⟨0xE0000, 0x0, 1, 0x0, 1, 0x4, 0x0, 0x0, 0x2, 0x1, 0x0⟩,  -- DFY_EQ_CTL
    ⟨0xE0004, 0x0, 1, 0x0, 1, 0x0, 0x1FFFFFF, 0x0, 0x0, 0x0, 0x0⟩,  -- DFY_EQ_ADDR
    ⟨0xE0008, 0x0, 1, 0x0, 1, 0x0, 0x0, 0x0, 0x0, 0x0, 0x0⟩,  -- DFY_EQ_STAT
    ⟨0xE000C, 0x0, 1, 0x0, 1, 0x1803, 0x3F0F, 0x0, 0x0, 0x0, 0x0⟩   -- DFY_BUCFG
  ]

/-- The registers of the HIV block. -/
def regDescsHiv : List RegDesc :=
  [
    ⟨0x100000, 0x0, 1, 0x0, 1, 0x2, 0x0, 0x0, 0x0, 0x1, 0x0⟩,  -- HIV_CTL
    ⟨0x100004, 0x0, 1, 0x0, 1, 0x0, 0x0, 0x0, 0x7, 0x0, 0x0⟩,  -- HIV_STAT
    ⟨0x100008, 0x0, 1, 0x0, 1, 0x0, 0x0, 0x0, 0x0, 0x0, 0x0⟩,  -- HIV_ERRCNT
    ⟨0x10000C, 0x0, 1, 0x0, 1, 0x0, 0x0, 0x0, 0x0, 0x0, 0x0⟩,  -- HIV_STRAND
    ⟨0x100010, 0x0, 1, 0x0, 1, 0x0, 0x0, 0x0, 0x0, 0x0, 0x7FFF⟩,  -- HIV_DONE
    ⟨0x100014, 0x0, 1, 0x0, 1, 0x0, 0x0, 0x0, 0x0, 0x0, 0x3F0FFF⟩,  -- HIV_HEV
    ⟨0x100020, 0x0, 1, 0x0, 1, 0x0, 0xFFFFF, 0x0, 0x0, 0x0, 0x0⟩,  -- HIV_QSEL
    ⟨0x100024, 0x0, 1, 0x0, 1, 0x0, 0xFFFFC1FF, 0x0, 0x0, 0x0, 0x0⟩,  -- HIV_QCFG
    ⟨0x100028, 0x0, 1, 0x0, 1, 0x0, 0x0, 0x0, 0x0, 0x7, 0x0⟩,  -- HIV_QCMD
    ⟨0x10002C, 0x0, 1, 0x0, 1, 0x0, 0x0, 0x0, 0x0, 0x0, 0x0⟩,  -- HIV_QDEPTH
    ⟨0x100030, 0x0, 1, 0x0, 1, 0x0, 0xFFF, 0x0, 0x0, 0x0, 0x0⟩,  -- HIV_TSEL
    ⟨0x100034, 0x0, 1, 0x0, 1, 0x0, 0x1FF3F, 0x0, 0x0, 0x0, 0x0⟩,  -- HIV_TCFG
    ⟨0x100038, 0x0, 1, 0x0, 1, 0x0, 0xFFFFFFFF, 0x0, 0x0, 0x0, 0x0⟩,  -- HIV_TMASK_LO
    ⟨0x10003C, 0x0, 1, 0x0, 1, 0x0, 0xFFFFFFFF, 0x0, 0x0, 0x0, 0x0⟩,  -- HIV_TMASK_HI
    ⟨0x100040, 0x0, 1, 0x0, 1, 0x0, 0x0, 0x0, 0x0, 0x0, 0x0⟩,  -- HIV_TFLAG_LO
    ⟨0x100044, 0x0, 1, 0x0, 1, 0x0, 0x0, 0x0, 0x0, 0x0, 0x0⟩,  -- HIV_TFLAG_HI
    ⟨0x100048, 0x0, 1, 0x0, 1, 0x0, 0x0, 0x0, 0x0, 0x7, 0x0⟩,  -- HIV_TCMD
    ⟨0x100050, 0x0, 1, 0x0, 1, 0x0, 0x0, 0x0, 0x2, 0x1, 0x0⟩,  -- HIV_AUDIT
    ⟨0x100054, 0x4, 4, 0x0, 1, 0x0, 0x0, 0x0, 0x0, 0x0, 0x0⟩,  -- HIV_AUD
    ⟨0x100080, 0x4, 16, 0x0, 1, 0x1010101, 0xFFFFFFFF, 0x0, 0x0, 0x0, 0x0⟩,  -- HIV_GW
    ⟨0x100100, 0x10, 8, 0x0, 1, 0x0, 0x0, 0x0, 0x0, 0x0, 0x0⟩,  -- HIV_TAKE
    ⟨0x100104, 0x10, 8, 0x0, 1, 0x0, 0x0, 0x0, 0x0, 0x0, 0x0⟩,  -- HIV_CUR
    ⟨0x100108, 0x10, 8, 0x0, 1, 0x0, 0x0, 0x0, 0x0, 0x1, 0x0⟩,  -- HIV_YIELD
    ⟨0x100180, 0x0, 1, 0x0, 1, 0x0, 0x0, 0x0, 0x0, 0x0, 0x0⟩,  -- HIV_TAKE_SELF
    ⟨0x100184, 0x0, 1, 0x0, 1, 0x0, 0x0, 0x0, 0x0, 0x0, 0x0⟩,  -- HIV_CUR_SELF
    ⟨0x100188, 0x0, 1, 0x0, 1, 0x0, 0x0, 0x0, 0x0, 0x1, 0x0⟩   -- HIV_YIELD_SELF
  ]

/-- The registers of the MTH block. -/
def regDescsMth : List RegDesc :=
  [
    ⟨0x120000, 0x0, 1, 0x0, 1, 0x0, 0x3, 0x0, 0x0, 0x1C, 0x0⟩,  -- MTH_CTL
    ⟨0x120004, 0x0, 1, 0x0, 1, 0x0, 0x0, 0x0, 0xC, 0x0, 0x0⟩,  -- MTH_STAT
    ⟨0x120008, 0x0, 1, 0x0, 1, 0x0, 0xFFF, 0x0, 0x0, 0x0, 0x0⟩,  -- MTH_TSRC
    ⟨0x12000C, 0x0, 1, 0x0, 1, 0x800, 0xFFF, 0x0, 0x0, 0x0, 0x0⟩,  -- MTH_PRE
    ⟨0x120010, 0x0, 1, 0x0, 1, 0x40, 0x1FFF, 0x0, 0x0, 0x0, 0x0⟩,  -- MTH_RED
    ⟨0x120014, 0x0, 1, 0x0, 1, 0x0, 0x0, 0x0, 0x0, 0x0, 0x0⟩,  -- MTH_TRIG
    ⟨0x120018, 0x0, 1, 0x0, 1, 0x0, 0x0, 0x0, 0x0, 0x0, 0x0⟩,  -- MTH_THIT
    ⟨0x12001C, 0x0, 1, 0x0, 1, 0x0, 0x0, 0x0, 0x0, 0x0, 0x0⟩,  -- MTH_HEAD
    ⟨0x120020, 0x0, 1, 0x0, 1, 0x0, 0x0, 0x0, 0x0, 0x0, 0x0⟩,  -- MTH_LOSS
    ⟨0x128000, 0x4, 8192, 0x0, 1, 0x0, 0x0, 0x0, 0x0, 0x0, 0x0⟩   -- MTH_TAG
  ]

/-- The registers of the TRM block. -/
def regDescsTrm : List RegDesc :=
  [
    ⟨0x130000, 0x20, 2, 0x0, 1, 0x0, 0x1FFFFC0, 0x0, 0x0, 0x0, 0x0⟩,  -- TRM_DESC
    ⟨0x130004, 0x20, 2, 0x0, 1, 0x0, 0x0, 0x0, 0x0, 0xF, 0x0⟩,  -- TRM_CMD
    ⟨0x130008, 0x20, 2, 0x0, 1, 0x0, 0x0, 0x0, 0x4, 0x0, 0x0⟩,  -- TRM_STAT
    ⟨0x13000C, 0x20, 2, 0x0, 1, 0x0, 0x0, 0x0, 0x0, 0x0, 0x0⟩,  -- TRM_IN
    ⟨0x130010, 0x20, 2, 0x0, 1, 0x0, 0x0, 0x0, 0x0, 0x0, 0x0⟩   -- TRM_OUT
  ]

/-- The registers of the TWN block. -/
def regDescsTwn : List RegDesc :=
  [
    ⟨0x140000, 0x0, 1, 0x0, 1, 0x0, 0x8, 0x1, 0x0, 0x6, 0x0⟩,  -- TWN_CTL
    ⟨0x140004, 0x0, 1, 0x0, 1, 0x64141000, 0xFF0000, 0xFF003F07, 0x0, 0x0, 0x0⟩,  -- TWN_CFG
    ⟨0x140008, 0x0, 1, 0x0, 1, 0x0, 0x0, 0x0, 0xF800, 0x0, 0x0⟩,  -- TWN_STAT
    ⟨0x14000C, 0x0, 1, 0x0, 1, 0x0, 0x0, 0x0, 0x0, 0x0, 0x0⟩,  -- TWN_SIG
    ⟨0x140010, 0x0, 1, 0x0, 1, 0x0, 0x0, 0x0, 0x0, 0x0, 0x0⟩,  -- TWN_PSIG
    ⟨0x140014, 0x0, 1, 0x0, 1, 0x0, 0x0, 0x0, 0x0, 0x0, 0x0⟩,  -- TWN_TOFS
    ⟨0x140018, 0x0, 1, 0x0, 1, 0x0, 0x0, 0x0, 0x0, 0x0, 0x0⟩,  -- TWN_CNT
    ⟨0x14001C, 0x0, 1, 0x0, 1, 0x0, 0x0, 0x0, 0x0, 0x0, 0x0⟩,  -- TWN_REC
    ⟨0x140020, 0x0, 1, 0x0, 1, 0x0, 0x0, 0x0, 0x0, 0x0, 0x0⟩,  -- TWN_HO
    ⟨0x140024, 0x0, 1, 0x0, 1, 0x0, 0x7FFFF0, 0x0, 0x0, 0x0, 0x0⟩,  -- TWN_BULK_OFS
    ⟨0x140028, 0x0, 1, 0x0, 1, 0x0, 0xFFFFF0, 0x0, 0x0, 0x0, 0x0⟩,  -- TWN_BULK_LEN
    ⟨0x14002C, 0x0, 1, 0x0, 1, 0x0, 0x0, 0x0, 0x0, 0x0, 0x0⟩   -- TWN_RET
  ]

/-- The registers of the MTS block. -/
def regDescsMts : List RegDesc :=
  [
    ⟨0x150000, 0x0, 1, 0x0, 1, 0x3E, 0x0, 0x0, 0x1000, 0x0, 0x0⟩,  -- MTS_STAT
    ⟨0x150004, 0x0, 1, 0x0, 1, 0x0, 0x0, 0x0, 0x0, 0x0, 0x0⟩,  -- MTS_FUNC
    ⟨0x150008, 0x0, 1, 0x0, 1, 0x0, 0x0, 0x0, 0x0, 0x0, 0x0⟩,  -- MTS_IN
    ⟨0x15000C, 0x0, 1, 0x0, 1, 0x14, 0x0, 0x0, 0x0, 0x0, 0x0⟩,  -- MTS_CAUSE
    ⟨0x150010, 0x0, 1, 0x0, 1, 0x0, 0x0, 0x0, 0x0, 0x7, 0xFFFF0000⟩,  -- MTS_CMD
    ⟨0x150014, 0x0, 1, 0x0, 1, 0x0, 0x0, 0x0, 0x0, 0x0, 0x0⟩,  -- MTS_CHK
    ⟨0x150018, 0x0, 1, 0x0, 1, 0x0, 0x0, 0x0, 0x0, 0x0, 0xFFFFFFFF⟩,  -- MTS_CONFIRM
    ⟨0x15001C, 0x0, 1, 0x0, 1, 0x0, 0x0, 0x0, 0x1000000, 0x0, 0x0⟩,  -- MTS_SMSTAT
    ⟨0x150020, 0x0, 1, 0x0, 1, 0x0, 0x1, 0x0, 0x0, 0x0, 0x0⟩,  -- MTS_BS
    ⟨0x150024, 0x0, 1, 0x0, 1, 0x0, 0x0, 0x0, 0x0, 0x0, 0xFFFFFFFF⟩,  -- MTS_BSDEM
    ⟨0x150028, 0x0, 1, 0x0, 1, 0x0, 0x0, 0x0, 0x0, 0x0, 0x0⟩,  -- MTS_INJ
    ⟨0x151000, 0x4, 64, 0x0, 1, 0x0, 0xFFFFFFFF, 0x0, 0x0, 0x0, 0x0⟩,  -- MTS_PARAM
    ⟨0x158000, 0x4, 8192, 0x0, 1, 0x0, 0xFFFFFFFF, 0x0, 0x0, 0x0, 0x0⟩   -- MTS_BSMEM
  ]

/-- The registers of the CCD block. -/
def regDescsCcd : List RegDesc :=
  [
    ⟨0x160000, 0x0, 1, 0x0, 1, 0x1, 0xFF, 0x0, 0x0, 0x0, 0x0⟩,  -- CCD_CTL
    ⟨0x160004, 0x0, 1, 0x0, 1, 0x0, 0x0, 0x0, 0x0, 0x0, 0x3FFFFF07⟩,  -- CCD_SWREP
    ⟨0x160008, 0x0, 1, 0x0, 1, 0x0, 0x0, 0x0, 0xFFFFFFFF, 0x0, 0x0⟩,  -- CCD_STAT0
    ⟨0x16000C, 0x0, 1, 0x0, 1, 0x0, 0x0, 0x0, 0xFFFFFFFF, 0x0, 0x0⟩,  -- CCD_STAT1
    ⟨0x160010, 0x0, 1, 0x0, 1, 0x0, 0x0, 0x0, 0x0, 0x0, 0x0⟩,  -- CCD_SUM
    ⟨0x160014, 0x0, 1, 0x0, 1, 0x0, 0x0, 0x0, 0x0, 0x0, 0x0⟩,  -- CCD_LOGHEAD
    ⟨0x160018, 0x0, 1, 0x0, 1, 0x0, 0x0, 0x0, 0x0, 0x0, 0x0⟩,  -- CCD_LOGTOT
    ⟨0x16001C, 0x0, 1, 0x0, 1, 0x0, 0x0, 0x0, 0x0, 0x0, 0x0⟩,  -- CCD_LOGOVW
    ⟨0x160020, 0x0, 1, 0x0, 1, 0x0, 0x0, 0x0, 0x0, 0x0, 0x0⟩,  -- CCD_SUPP
    ⟨0x160024, 0x0, 1, 0x0, 1, 0x0, 0xFFF, 0x0, 0x0, 0x0, 0x0⟩,  -- CCD_LIDX
    ⟨0x160028, 0x0, 1, 0x0, 1, 0x0, 0x0, 0x0, 0x0, 0x0, 0x0⟩,  -- CCD_LOG0
    ⟨0x16002C, 0x0, 1, 0x0, 1, 0x0, 0x0, 0x0, 0x0, 0x0, 0x0⟩,  -- CCD_LOG1
    ⟨0x160030, 0x0, 1, 0x0, 1, 0x0, 0x0, 0x0, 0x0, 0x0, 0x0⟩,  -- CCD_LOG2
    ⟨0x160034, 0x0, 1, 0x0, 1, 0x0, 0x0, 0x0, 0x0, 0x0, 0x0⟩,  -- CCD_LOG3
    ⟨0x160038, 0x0, 1, 0x0, 1, 0x0, 0x77, 0x0, 0x100, 0x8, 0x0⟩,  -- CCD_INJ
    ⟨0x160100, 0x0, 1, 0x0, 1, 0x1000000, 0x18181818, 0x7070707, 0x0, 0x0, 0x0⟩,  -- CCD_RCT0
    ⟨0x160104, 0x0, 1, 0x0, 1, 0x1030101, 0x18181818, 0x7070707, 0x0, 0x0, 0x0⟩,  -- CCD_RCT1
    ⟨0x160108, 0x0, 1, 0x0, 1, 0x1010103, 0x18181818, 0x7070707, 0x0, 0x0, 0x0⟩,  -- CCD_RCT2
    ⟨0x16010C, 0x0, 1, 0x0, 1, 0x3010100, 0x18181818, 0x7070707, 0x0, 0x0, 0x0⟩,  -- CCD_RCT3
    ⟨0x160110, 0x0, 1, 0x0, 1, 0x3010101, 0x18181818, 0x7070707, 0x0, 0x0, 0x0⟩,  -- CCD_RCT4
    ⟨0x160114, 0x0, 1, 0x0, 1, 0x1000101, 0x18181818, 0x7070707, 0x0, 0x0, 0x0⟩,  -- CCD_RCT5
    ⟨0x160118, 0x0, 1, 0x0, 1, 0x1010100, 0x18181818, 0x7070707, 0x0, 0x0, 0x0⟩,  -- CCD_RCT6
    ⟨0x16011C, 0x0, 1, 0x0, 1, 0x1000300, 0x18181818, 0x7070707, 0x0, 0x0, 0x0⟩,  -- CCD_RCT7
    ⟨0x160120, 0x0, 1, 0x0, 1, 0x1010101, 0x18181818, 0x7070707, 0x0, 0x0, 0x0⟩,  -- CCD_RCT8
    ⟨0x160124, 0x0, 1, 0x0, 1, 0x1030101, 0x18181818, 0x7070707, 0x0, 0x0, 0x0⟩,  -- CCD_RCT9
    ⟨0x160128, 0x0, 1, 0x0, 1, 0x1010101, 0x18181818, 0x7070707, 0x0, 0x0, 0x0⟩,  -- CCD_RCT10
    ⟨0x16012C, 0x0, 1, 0x0, 1, 0x1010101, 0x18181818, 0x7070707, 0x0, 0x0, 0x0⟩,  -- CCD_RCT11
    ⟨0x160130, 0x0, 1, 0x0, 1, 0x10101, 0x18181818, 0x7070707, 0x0, 0x0, 0x0⟩,  -- CCD_RCT12
    ⟨0x160134, 0x0, 1, 0x0, 1, 0x0, 0x18181818, 0x7070707, 0x0, 0x0, 0x0⟩,  -- CCD_RCT13
    ⟨0x160138, 0x0, 1, 0x0, 1, 0x0, 0x18181818, 0x7070707, 0x0, 0x0, 0x0⟩,  -- CCD_RCT14
    ⟨0x16013C, 0x0, 1, 0x0, 1, 0x0, 0x18181818, 0x7070707, 0x0, 0x0, 0x0⟩   -- CCD_RCT15
  ]

/-- The registers of the BTL block. -/
def regDescsBtl : List RegDesc :=
  [
    ⟨0x170000, 0x0, 1, 0x0, 1, 0x0, 0x1FF, 0x0, 0x0, 0x0, 0x0⟩,  -- BTL_CTL
    ⟨0x170004, 0x0, 1, 0x0, 1, 0x0, 0x0, 0x0, 0x0, 0xFFFF, 0x0⟩,  -- BTL_HALT
    ⟨0x170008, 0x0, 1, 0x0, 1, 0x0, 0x0, 0x0, 0xFF, 0x0, 0x0⟩,  -- BTL_STAT
    ⟨0x170100, 0x20, 8, 0x0, 1, 0x0, 0xFFFFFFFC, 0x0, 0x0, 0x0, 0x0⟩,  -- BTL_BOOT
    ⟨0x170104, 0x20, 8, 0x0, 1, 0x0, 0x0, 0x0, 0x0, 0x0, 0x0⟩,  -- BTL_PC
    ⟨0x170108, 0x20, 8, 0x0, 1, 0x0, 0x0, 0x0, 0x0, 0x0, 0x0⟩,  -- BTL_CAUSE
    ⟨0x17010C, 0x20, 8, 0x0, 1, 0x0, 0x0, 0x0, 0x0, 0x0, 0x0⟩,  -- BTL_EPC
    ⟨0x170110, 0x20, 8, 0x0, 1, 0x0, 0x1F, 0x0, 0x0, 0x0, 0x0⟩,  -- BTL_GSEL
    ⟨0x170114, 0x20, 8, 0x0, 1, 0x0, 0xFFFFFFFF, 0x0, 0x0, 0x0, 0x0⟩,  -- BTL_GDATA
    ⟨0x170118, 0x20, 8, 0x0, 1, 0x0, 0x0, 0x0, 0x0, 0x0, 0x0⟩,  -- BTL_STALL
    ⟨0x171000, 0x20, 16, 0x0, 1, 0x300, 0xFF37, 0x0, 0x0, 0x0, 0x0⟩,  -- BTL_TCFG
    ⟨0x171004, 0x20, 16, 0x0, 1, 0x1, 0xFFFFFF, 0x0, 0x0, 0x0, 0x0⟩,  -- BTL_TPER
    ⟨0x171008, 0x20, 16, 0x0, 1, 0x0, 0xFFFFFF, 0x0, 0x0, 0x0, 0x0⟩,  -- BTL_TPH
    ⟨0x17100C, 0x20, 16, 0x0, 1, 0x0, 0x1FFFC00, 0x0, 0x0, 0x0, 0x0⟩,  -- BTL_TIMG
    ⟨0x171010, 0x20, 16, 0x0, 1, 0x0, 0x0, 0x0, 0x0, 0x1, 0x0⟩,  -- BTL_TCMD
    ⟨0x171014, 0x20, 16, 0x0, 1, 0x0, 0x0, 0x0, 0x58, 0x0, 0x0⟩,  -- BTL_TSTAT
    ⟨0x171018, 0x20, 16, 0x0, 1, 0x0, 0x0, 0x0, 0x0, 0x0, 0x0⟩,  -- BTL_TCNT
    ⟨0x17101C, 0x20, 16, 0x0, 1, 0x0, 0x3F0FFF, 0x0, 0x0, 0x0, 0x0⟩   -- BTL_THIV
  ]

/-- The registers of the HST block. -/
def regDescsHst : List RegDesc :=
  [
    ⟨0x180000, 0x0, 1, 0x0, 1, 0x0, 0x0, 0x0, 0x400, 0x0, 0x0⟩,  -- HST_STAT
    ⟨0x180004, 0x0, 1, 0x0, 1, 0x0, 0xFFF, 0x0, 0x0, 0x0, 0x0⟩,  -- HST_WIN
    ⟨0x180008, 0x0, 1, 0x0, 1, 0x0, 0x0, 0x0, 0x0, 0xFF, 0x0⟩,  -- HST_DOORBELL
    ⟨0x18000C, 0x0, 1, 0x0, 1, 0x0, 0x0, 0x0, 0x0, 0x0, 0x3F⟩,  -- HST_FWINT
    ⟨0x180010, 0x0, 1, 0x0, 1, 0x0, 0xFFFF, 0x0, 0x0, 0x0, 0x0⟩,  -- HST_TICK
    ⟨0x180100, 0x10, 8, 0x0, 1, 0x0, 0x1FFFFE0, 0x0, 0x0, 0x0, 0x0⟩,  -- HST_DDESC
    ⟨0x180104, 0x10, 8, 0x0, 1, 0x0, 0x0, 0x0, 0x0, 0x3, 0x0⟩,  -- HST_DCMD
    ⟨0x180108, 0x10, 8, 0x0, 1, 0x0, 0x0, 0x0, 0x2, 0x0, 0x0⟩,  -- HST_DSTAT
    ⟨0x188000, 0x10, 64, 0x4, 3, 0x0, 0xFFFFFFFF, 0x0, 0x0, 0x0, 0x0⟩,  -- HST_MSIX address, data
    ⟨0x18800C, 0x10, 64, 0x0, 1, 0x1, 0x1, 0x0, 0x0, 0x0, 0x0⟩,  -- HST_MSIX vector control
    ⟨0x189000, 0x4, 2, 0x0, 1, 0x0, 0x0, 0x0, 0x0, 0x0, 0x0⟩   -- HST_PBA
  ]

/-- The registers of the ETH block. -/
def regDescsEth : List RegDesc :=
  [
    ⟨0x190000, 0x400, 2, 0x0, 1, 0x0, 0x1, 0x0, 0x4, 0x0, 0x0⟩,  -- ETH_CTL
    ⟨0x190004, 0x400, 2, 0x0, 1, 0x0, 0xFFFFFFFF, 0x0, 0x0, 0x0, 0x0⟩,  -- ETH_MAC_LO
    ⟨0x190008, 0x400, 2, 0x0, 1, 0x0, 0xFFFF, 0x0, 0x0, 0x0, 0x0⟩,  -- ETH_MAC_HI
    ⟨0x19000C, 0x400, 2, 0x0, 1, 0x0, 0x1FFFFE0, 0x0, 0x0, 0x0, 0x0⟩,  -- ETH_RXBASE
    ⟨0x190010, 0x400, 2, 0x0, 1, 0x0, 0x1FFEFFF, 0x0, 0x0, 0x0, 0x0⟩,  -- ETH_RXPTR
    ⟨0x190014, 0x400, 2, 0x0, 1, 0x0, 0x1FFFFE0, 0x0, 0x0, 0x0, 0x0⟩,  -- ETH_TXBASE
    ⟨0x190018, 0x400, 2, 0x0, 1, 0x0, 0x1FFEFFF, 0x0, 0x0, 0x0, 0x0⟩,  -- ETH_TXPTR
    ⟨0x19001C, 0x400, 2, 0x0, 1, 0x0, 0x0, 0x0, 0x0, 0x0, 0x0⟩,  -- ETH_CNT
    ⟨0x190020, 0x400, 2, 0x0, 1, 0x0, 0x0, 0x0, 0x0, 0x0, 0x0⟩,  -- ETH_SAFE
    ⟨0x190024, 0x400, 2, 0x0, 1, 0x0, 0x0, 0x0, 0x0, 0x0, 0x0⟩   -- ETH_HEAD
  ]

/-- The registers of the PWM block. -/
def regDescsPwm : List RegDesc :=
  [
    ⟨0x1A0000, 0x0, 1, 0x0, 1, 0xFF1000, 0xFF1FFF, 0x0, 0x0, 0x0, 0x0⟩,  -- PWM_CTL
    ⟨0x1A0004, 0x0, 1, 0x0, 1, 0xA0FFF, 0xFF0FFF, 0x0, 0x1000, 0x0, 0x0⟩,  -- PWM_FLT
    ⟨0x1A0008, 0x0, 1, 0x0, 1, 0x5014, 0xFF7F, 0x0, 0x0, 0x0, 0x0⟩,  -- PWM_BOOT
    ⟨0x1A000C, 0x0, 1, 0x0, 1, 0x0, 0x0, 0x0, 0x0, 0x0, 0x0⟩,  -- PWM_STAT
    ⟨0x1A0100, 0x10, 12, 0x0, 1, 0xFA0, 0xFFFFFF, 0x0, 0x0, 0x0, 0x0⟩,  -- PWM_PER
    ⟨0x1A0104, 0x10, 12, 0x0, 1, 0x0, 0xFFFFFF, 0x0, 0x0, 0x0, 0x0⟩,  -- PWM_DUTY
    ⟨0x1A0108, 0x10, 12, 0x0, 1, 0x0, 0xFFFFFF, 0x0, 0x0, 0x0, 0x0⟩,  -- PWM_PH
    ⟨0x1A010C, 0x10, 12, 0x0, 1, 0x0, 0xF7, 0x0, 0x0, 0x0, 0x0⟩   -- PWM_CFG
  ]

/-- The registers of the MOD block. -/
def regDescsMod : List RegDesc :=
  [
    ⟨0x1B0000, 0x0, 1, 0x0, 1, 0x0, 0x0, 0x0, 0x0, 0x7, 0x0⟩,  -- MOD_CTL
    ⟨0x1B0004, 0x0, 1, 0x0, 1, 0x300, 0x0, 0x0, 0x7000, 0x0, 0x0⟩,  -- MOD_STAT
    ⟨0x1B0008, 0x0, 1, 0x0, 1, 0x1E00, 0xFF03, 0x0, 0x0, 0x0, 0x0⟩,  -- MOD_BOOT
    ⟨0x1B000C, 0x0, 1, 0x0, 1, 0x0, 0x0, 0x0, 0x0, 0x0, 0x0⟩,  -- MOD_COMPAT
    ⟨0x1B0010, 0x0, 1, 0x0, 1, 0x0, 0x0, 0x0, 0x0, 0x0, 0x0⟩,  -- MOD_IMG
    ⟨0x1B0014, 0x0, 1, 0x0, 1, 0x0, 0x0, 0x0, 0x0, 0x0, 0x0⟩,  -- MOD_TAG
    ⟨0x1B0018, 0x0, 1, 0x0, 1, 0x0, 0x0, 0x0, 0x0, 0x0, 0x0⟩,  -- MOD_TAG_ALT
    ⟨0x1B001C, 0x0, 1, 0x0, 1, 0x0, 0x0, 0x0, 0x0, 0x0, 0x0⟩,  -- MOD_PWR
    ⟨0x1B0020, 0x0, 1, 0x0, 1, 0xA000000, 0xFF000000, 0x0, 0x0, 0x0, 0x0⟩,  -- MOD_BAK
    ⟨0x1B0024, 0x0, 1, 0x0, 1, 0x640000, 0xFF0000, 0x0, 0x0, 0x0, 0x0⟩,  -- MOD_TEMP
    ⟨0x1B0028, 0x0, 1, 0x0, 1, 0x0, 0x0, 0x0, 0x0, 0x0, 0x0⟩,  -- MOD_OUTAGE
    ⟨0x1B002C, 0x0, 1, 0x0, 1, 0x0, 0x3FF, 0x0, 0x0, 0x0, 0x0⟩,  -- MOD_FSEC
    ⟨0x1B0030, 0x0, 1, 0x0, 1, 0x0, 0x1FFFFC0, 0x0, 0x0, 0x0, 0x0⟩,  -- MOD_FSRC
    ⟨0x1B0034, 0x0, 1, 0x0, 1, 0x0, 0x0, 0x0, 0x8, 0x3, 0x0⟩   -- MOD_FCMD
  ]

/-- Whether the descriptor covers the offset. -/
def regCovers (d : RegDesc) (a : Nat) : Bool :=
  decide (d.base ≤ a) &&
    (if d.stride = 0 then
        (if d.stride2 = 0 then a == d.base
          else decide ((a - d.base) % d.stride2 = 0) && decide ((a - d.base) / d.stride2 < d.count2))
      else
        decide ((a - d.base) / d.stride < d.count) &&
          (let o := (a - d.base) % d.stride
           if d.stride2 = 0 then o == 0
            else decide (o % d.stride2 = 0) && decide (o / d.stride2 < d.count2)))

/-- The descriptors of the block that holds the offset (Table 1.7). -/
def regDescsOf (a : Nat) : List RegDesc :=
  if a < 0x10000 then regDescsGcr else
  if a < 0x20000 then regDescsFfy else
  if a < 0x40000 then regDescsCrk else
  if a < 0x80000 then regDescsSwm else
  if a < 0xA0000 then regDescsHrn else
  if a < 0xB0000 then regDescsMdg else
  if a < 0xC0000 then regDescsLcw else
  if a < 0x100000 then regDescsDfy else
  if a < 0x120000 then regDescsHiv else
  if a < 0x130000 then regDescsMth else
  if a < 0x140000 then regDescsTrm else
  if a < 0x150000 then regDescsTwn else
  if a < 0x160000 then regDescsMts else
  if a < 0x170000 then regDescsCcd else
  if a < 0x180000 then regDescsBtl else
  if a < 0x190000 then regDescsHst else
  if a < 0x1A0000 then regDescsEth else
  if a < 0x1B0000 then regDescsPwm else
  if a < 0x1C0000 then regDescsMod else
  []

/-- The descriptor of the register at an offset, if there is one there (R9). -/
def regDesc (a : Nat) : Option RegDesc := (regDescsOf a).find? (fun d => regCovers d a)

/-- The value of a register right after reset: its reset column; 0 where no register is (R9). -/
def regReset (a : Nat) : Word :=
  match regDesc a with
  | some d => d.reset
  | none => 0

end Sys2Proof.Machine
end

