-- ==== Sys2Proof/Machine/State.lean ====
section
/-!
DEFINITION. The state of the device, as plain data: the registers of BAR0, the on-chip memory, and
unit by unit what the spec gives a unit beside its registers.

A sparse table holds (key, value) pairs with keys strictly rising and no entry equal to what an
unlisted key reads as, so that equal contents are equal data.
-/

namespace Sys2Proof.Machine

/-- Why the device stops: it never does. The spec gives every command an effect or has it ignored,
so that no reason is needed and there is none. -/
inductive Fault where
  deriving DecidableEq, Repr

/-- Why a command has no meaning here. -/
inductive Refusal where
  /-- Raised by Dispatch for a row that has no meaning yet. Safe. -/
  | notModelled (mnemonic : String)
  /-- Raised by MTS_INJ in factory test mode: R376 says such an injection is accepted there and
  Table 15.11 gives MTS_INJ no fields, so that its effect on Mantis is not in the spec. Safe. -/
  | factoryInjection
  deriving DecidableEq, Repr

/-- A sparse table. -/
abbrev Tab (α : Type) := List (Nat × α)

/-! ### Cells and Swarm (chapters 3 and 4) -/

/-- A command to a cell as Swarm states it (Table 4.2, R95): the target state, the window time of
the change to it in ns, and of a second change, to Bypassed. -/
structure CellCmd where
  code : Nat := 0
  et1 : Option Nat := none
  et2 : Option Nat := none
  deriving DecidableEq, Repr

/-- What Swarm and Dragonfly keep of one cell. -/
structure CellSt where
  /-- the last valid raw reports, 0.1 V, newest first, at most five (R60) -/
  raws : List Nat := []
  /-- valid reports since the cell last became available, at most five (R60, R76) -/
  nValid : Nat := 0
  /-- sweeps since the last valid report, at most 0xFFFF (Table 3.5) -/
  age : Nat := 65535
  /-- admission point, ps, of the newest valid report (R61) -/
  repAt : Nat := 0
  /-- UNAV and a Permanent bypass record as they stood at the last admission point (R75, R93) -/
  unav : Nat := 0
  perm : Bool := false
  /-- state code at the end of the last committed window -/
  endState : Nat := 0
  /-- the commanded states, newest first, each with the instant, ps, from which it holds (R62) -/
  hist : List (Nat × Nat) := []
  /-- edges commanded since power-good (Table 3.5) -/
  edges : Nat := 0
  /-- working copy of the cell table entry (R86, R87) -/
  flags : Nat := 0
  vnom : Nat := 0
  cap : Nat := 0
  delay : Nat := 0
  /-- DELAY that calibration has written to the cell table and no refresh has taken over (R39, R106) -/
  calDelay : Option Nat := none
  /-- the command last committed for the cell (R42, R96) -/
  cmd : CellCmd := {}
  /-- code and fault of the last admitted report, and reports in a row that differ from the
  committed state (MISMATCH, Table 4.6) -/
  repState : Nat := 0
  mismatch : Nat := 0
  /-- fault code last raised by the cell's reports, so that one fault makes one record -/
  lastFault : Nat := 0
  /-- the last test command in arm test (R79) -/
  testCode : Nat := 0
  deriving DecidableEq, Repr

/-- The tentative results of one arm's Swarm in a sweep: they commit or are discarded (R40). -/
structure ArmWork where
  /-- slot and command, in slot order, for every slot in use that the sweep addresses -/
  cmds : Tab CellCmd := []
  /-- filtered and predicted voltage of every slot in use (R60, R61) -/
  vmed : Tab Nat := []
  vpred : Tab Int := []
  /-- slots whose change waits for a later sweep, in their order (R99) -/
  deferred : List Nat := []
  sat : Bool := false
  edgeLim : Bool := false
  dirDis : Bool := false
  polNeg : Bool := false
  nIns : Nat := 0
  nAvail : Nat := 0
  frac : Nat := 0
  fslot : Option Nat := none
  vref : Int := 0
  iarm : Int := 0
  verr : Int := 0
  dNs : Nat := 0
  adj : Bool := false
  /-- edge times placed, in the order of placing -/
  edges : List Nat := []
  defer : Bool := false
  /-- arm test: test commands given to slots, and entries carried into the next window (R102) -/
  tests : Tab Nat := []
  carry : List (Nat × Nat) := []
  /-- entries of the test list skipped, where the sweep applies one (R79) -/
  skipped : Option Nat := none
  /-- the sum of VMED, 0.1 V, and Σ CAP × VMED² of the available cells (Table 5.2) -/
  vsum : Nat := 0
  energy : Nat := 0
  deriving DecidableEq, Repr

/-- A hook bank's contents as copied into the engine: pre hook and key hook code (R90). -/
structure HookCode where
  pre : List Word := []
  key : List Word := []
  /-- the first word of the copy fails its check bits: an injection of TARGET 5 (R377) -/
  bad : Bool := false
  deriving DecidableEq, Repr

/-- What one arm's Swarm keeps beside its registers and its cells. -/
structure ArmSt where
  dirDis : Bool := false
  polNeg : Bool := false
  /-- GRANT_BYP decided since the last admission point (R115) -/
  grants : Nat := 0
  /-- next slot of the state image (R89) -/
  image : Nat := 0
  hook : HookCode := {}
  hookNew : Option HookCode := none
  /-- a hook check and copy runs (R84) -/
  hookBusy : Bool := false
  /-- a refresh runs; sweeps since its request (R87, R88) -/
  refresh : Bool := false
  refreshSweeps : Nat := 0
  /-- times the running refresh has given way to a sweep's selection (R16, R88) -/
  refreshDefer : Nat := 0
  /-- a checked table that waits for the admission point: (slot, flags, vnom, cap, delay) -/
  tableNew : Option (List (Nat × Nat × Nat × Nat × Nat)) := none
  /-- test list requested; admitted and not yet committed; the entries applied, as admitted: slot, code
  and time, and how many were skipped (R18, R79) -/
  testGo : Bool := false
  testRun : Bool := false
  testList : List (Nat × Nat × Nat) := []
  testSkip : Nat := 0
  /-- carried test entries (slot, code) and the edges of the previous window (R102) -/
  testCarry : List (Nat × Nat) := []
  prevEdges : List Nat := []
  /-- slots whose change was deferred in the last committed sweep, in their order (R99) -/
  deferred : List Nat := []
  /-- of the last committed sweep: the sum of VMED, 0.1 V, and Σ CAP × VMED² of the available cells
  (Table 5.2) -/
  vsum : Nat := 0
  energy : Nat := 0
  work : ArmWork := {}
  deriving DecidableEq, Repr

/-- One cell's delay calibration (R104). Samples in units of 1/16 ns, exactly. -/
structure CalSt where
  samples : List Int := []
  abandoned : Nat := 0
  discarded : Nat := 0
  finished : Bool := false
  failed : Bool := false
  result : Option Int := none
  deriving DecidableEq, Repr

/-- Delay calibration as a whole (R105, R106). `lanes` are the keys of the lanes that take part,
`present` the cells of the pass, rising; `cells` the progress by cell ID, and by 8192 + cell ID for a
requalification (R196). -/
structure Dcal where
  running : Bool := false
  startedAt : Nat := 0
  told : Bool := false
  lanes : List Nat := []
  present : List Nat := []
  cells : Tab CalSt := []
  deriving DecidableEq, Repr

/-! ### Cricket (chapter 2) -/

/-- How far the data-plane chain of the sweep has come (R18, R21). -/
inductive Stage where
  /-- no sweep is admitted -/
  | idle
  | admitted
  | hornetDone
  | swarmDone
  | assembled
  deriving DecidableEq, Repr

structure Crk where
  /-- ps of the next admission point, while sweeps run -/
  nextAdm : Option Nat := none
  /-- the number the next sweep carries -/
  nextNum : Nat := 0
  /-- ps of the present sweep's admission point, and of the commit point still due -/
  admAt : Nat := 0
  commitDue : Option Nat := none
  stage : Stage := .idle
  /-- values held back by R33 -/
  heldPeriod : Option Word := none
  heldEpoch : Option (BitVec 64) := none
  heldWin : Option Word := none
  /-- the same values waiting for the end of the current sweep in Blocked or Servicing -/
  gridDue : Bool := false
  /-- the pending command's code (R48), and whether DEBLOCK_AT was evaluated before (R49) -/
  pend : Option Nat := none
  dbSeen : Bool := false
  /-- sweeps admitted since RUN last changed to 1, at most 16 (R52) -/
  since : Nat := 0
  /-- sweeps committed in time since RUN last changed to 1, at most 16 (R52) -/
  commits : Nat := 0
  /-- ps of the admission point since which LOCK was set at every one (R52) -/
  lockFrom : Option Nat := none
  /-- the size of OUT2 lanes 0 to 5 at the last 16 admission points, newest first: what the sweep
  before had committed (R52, R128) -/
  track : List (List Int) := []
  lateTrip : Bool := false
  mtsTrip : Bool := false
  winShort : Bool := false
  /-- the halves (bit 0: slots 0-63 of each lane, bit 1: 64-127) addressed by a sweep committed in time since
  the operating state was entered (R36, R59) -/
  dbDone : Nat := 0
  /-- the state was entered by BLOCK, STOP or a trip, so that its first sweep is R59's block sweep -/
  blockIn : Bool := false
  deriving DecidableEq, Repr

/-! ### Hornet and the hooks' vector machine (chapter 5) -/

/-- An accumulator of one lane: its 72-bit value, and its net-wrap counter with the direction
recorded on entry to overrange (R133, R134). -/
structure AccSt where
  val : Int := 0
  nw : Nat := 0
  up : Bool := false
  deriving DecidableEq, Repr

/-- The gain schedule of one lane (R137 to R139): region, mark, ramp and gains in force. -/
structure GainSt where
  region : Nat := 0
  mark : Bool := true
  step : Nat := 0
  ramp : Nat := 0
  g0 : List Int := [0, 0, 0]
  g1 : List Int := [0, 0, 0]
  cur : List Int := [0, 0, 0]
  deriving DecidableEq, Repr

/-- The working registers of a vector engine. `st` and `out` overlay the committed images (R122). -/
structure VecSt where
  v : Tab Word := []
  acc : Tab AccSt := []
  g : Tab Word := []
  st : Tab Word := []
  out : Tab Word := []
  /-- poisoned state words that the run has written (R152) -/
  cleared : List Nat := []
  gains : Tab GainSt := []
  satLanes : Word := 0
  govLanes : Word := 0
  instrs : Nat := 0
  macs : Nat := 0
  /-- instructions to skip before the next one acts (VBR) -/
  skip : Nat := 0
  ended : Bool := false
  deriving DecidableEq, Repr

/-- What a requested bank or page check has come to. -/
inductive Check where
  | none
  | running
  | passed
  deriving DecidableEq, Repr

structure Hrn where
  work : VecSt := {}
  /-- committed gain schedules, by lane -/
  gains : Tab GainSt := []
  /-- the input image admitted for the present sweep, and IN5 to IN7 in force (R126) -/
  inp : Tab Word := []
  mgmt : Tab Word := []
  exPend : Option Bool := none
  bank : Check := .none
  bankPar : Bool := false
  par : Check := .none
  /-- a run of this sweep stopped on a fault (R151) -/
  faulted : Bool := false
  /-- poisoned words of the HRN windows, by BAR0 offset, rising -/
  poison : List Nat := []
  /-- this sweep's run took place (R124), and its duration (R125) -/
  ran : Bool := false
  ns : Nat := 0
  deriving DecidableEq, Repr

/-! ### Midge and Lacewing (chapter 6) -/

structure ConvSt where
  /-- the running sequence: its entry, whether that entry converts, the instant it starts or
  started, and the settings the sequence was accepted with (R158) -/
  entry : Nat := 0
  converting : Bool := false
  startAt : Nat := 0
  cfg : Word := 0
  seq : Word := 0
  /-- the pending trigger's event instant (R157) -/
  pendAt : Nat := 0
  /-- spare-slice calibration (R164, R165): a swap due since, the next one due, a swap that runs
  since, slices whose trim failed, and whether the starvation of this one has been told -/
  swapDue : Option Nat := none
  swapNext : Nat := 100000000
  swapping : Option Nat := none
  sliceFail : List Nat := []
  calTold : Bool := false
  /-- plausibility (R162): failure count, last counted checks (level, passed), newest first, the
  latest checkable result since the last admission point, and whether the present level is passed
  over after a rearm -/
  fails : Nat := 0
  checks : List (Nat × Bool) := []
  plaus : Option Int := none
  skip : Bool := false
  deriving DecidableEq, Repr

structure PairSt where
  level : Nat := 0
  changedAt : Nat := 0
  deriving DecidableEq, Repr

structure LcwSlot where
  latch : Int := 0
  latchAt : Nat := 0
  fresh : Bool := false
  visitedAt : Option Nat := none
  /-- newest fresh results, newest first, at most five (R168) -/
  win : List Int := []
  /-- median-stage outputs since the previous admission point, newest first (R169) -/
  outs : List Int := []
  /-- committed filter state (R173): held value, mean, and whether the mean is set -/
  d : Int := 0
  m : Int := 0
  mSet : Bool := false
  /-- the same as the present sweep leaves them -/
  dW : Int := 0
  mW : Int := 0
  mSetW : Bool := false
  /-- output last delivered while valid; the present sweep's output, validity, saturation and
  staleness -/
  last : Int := 0
  outW : Int := 0
  validW : Bool := false
  satW : Bool := false
  staleW : Bool := false
  /-- sweeps since a fresh result was taken, and whether the slot was valid in the last sweep -/
  age : Nat := 65535
  wasValid : Bool := false
  deriving DecidableEq, Repr

/-! ### Dragonfly (chapters 7 and 8) -/

/-- An upstream frame received whole and kept for admission (R214). -/
structure UpFrame where
  at_ : Nat
  seq : Nat
  epoch : Nat
  /-- the slots in frame order; a slot whose SCRC failed is not kept (R225) -/
  slots : List (Option (BitVec 128))
  deriving DecidableEq, Repr

/-- The settings of one lane pair (Table 7.1). -/
structure EqEntry where
  main : Nat := 40
  pre : Nat := 0
  post : Nat := 4
  ctle : Nat := 6
  dfe1 : Int := 0
  flags : Nat := 0
  deriving DecidableEq, Repr

/-- A downstream frame as assembled: the header with an empty RFX, HCRC, the slots with an empty RFX
(Tables 8.1 to 8.3). -/
structure DownFrame where
  hdr : BitVec 128 := 0
  hcrc : Word := 0
  slots : List (BitVec 128) := []
  deriving DecidableEq, Repr

/-- The transmit side of a lane's line code (R179 to R181, R186): the last 58 scrambled bits, the newest in
bit 0; the run of equal bits that entered the stuffer last; and the line bits of the carrier sent
last, in the order sent, or of each group of a training pattern. -/
structure TxSt where
  scr : BitVec 58 := 0
  run : Nat := 0
  runBit : Bool := false
  line : List Bool := []
  deriving DecidableEq, Repr

/-- The receive side of a lane's line code (R180, R182): the last 58 scrambled bits, the newest in bit 0,
and how many have come, up to 58; the run of equal line bits; and the instants, ps, of the last stuffing
violations, newest first, at most 16. -/
structure RxSt where
  scr : BitVec 58 := 0
  got : Nat := 0
  run : Nat := 0
  runBit : Bool := false
  viols : List Nat := []
  deriving DecidableEq, Repr

/-- One lane beside its registers. -/
structure LaneSt where
  /-- instant the present phase began; sweeps that released frames while in FRAME (R434) -/
  phaseAt : Nat := 0
  frameSweeps : Nat := 0
  /-- valid upstream frames in succession while in FRAME, bad ones in succession while LOCKED -/
  goodFrames : Nat := 0
  bad : Nat := 0
  /-- the lane has lost lock since its BRINGUP, and a requalification has failed since (R196) -/
  relocked : Bool := false
  barred : Bool := false
  /-- requalification is due or runs (R196) -/
  requal : Bool := false
  /-- pending reflex answers, oldest first, with BLK and RCRC still 0 (R217) -/
  answers : List Word := []
  /-- upstream frames kept for admission, newest first -/
  frames : List UpFrame := []
  /-- identity chunks received; chunks asked for, with the instant, ps (R221) -/
  chunks : Tab (BitVec 48) := []
  asked : Tab (Option Nat) := []
  /-- management units that wait for gap time, oldest first: UTYPE and payload (R219) -/
  units : List (Byte × BitVec 64) := []
  /-- echo requests, oldest first: lane slot, TAG, instant at which the request's last bit left the contacts
  (while its unit still waits in `units`, the instant it was formed) (R104, R220); the next TAG; the sweep in
  which the last one was formed -/
  echoes : List (Nat × Nat × Nat) := []
  echoTag : Nat := 0
  /-- carriers of frames that went before an echo request that waited (R16, R105) -/
  echoDefer : Nat := 0
  echoSweep : Option Word := none
  /-- the last eye report: width and height (R200) -/
  eye : Nat × Nat := (0, 0)
  /-- a scan runs: instant of START (R197); EYE_STARVED was told for it; DWELL_EXP as it acts, taken at
  START (R198) -/
  scan : Option Nat := none
  scanTold : Bool := false
  /-- words a scan has given way to (R16, R199); DWELL_EXP and the offset sampler's place, in steps, as
  they act for the scan (R197) -/
  scanDefer : Nat := 0
  scanDwell : Nat := 16
  scanPh : Int := 0
  scanV : Int := 0
  /-- settings in force since the last CLOCK phase (R185) -/
  eq : EqEntry := {}
  /-- the downstream frame being sent, how many of its carriers have been sent, and the frame that
  impairment mode REORDER withholds -/
  frame : Option DownFrame := none
  sent : Nat := 0
  /-- a downstream frame has been released since frames were last not sent: since RUN last changed to 1, the
  role changed, or the lane left the stream (R434) -/
  framed : Bool := false
  held : Option DownFrame := none
  /-- the beat frame withheld on a lane of port T -/
  heldBeat : List Bool := []
  /-- instants, ps: of the release of the frame being sent, and of the end of the last carrier sent -/
  frameAt : Nat := 0
  txAt : Nat := 0
  tx : TxSt := {}
  rx : RxSt := {}
  /-- reflex words acted on ahead of the rest of the header, slot or unit that carries them (R217) -/
  early : List Word := []
  /-- instant of the phase tracker's last step (R191) -/
  trackAt : Nat := 0
  deriving DecidableEq, Repr

/-- What Dragonfly keeps of one port beside its registers: impairment injection (R201, R202) and
whether its part of the switching set is complete (R195). -/
structure ImpSt where
  /-- armed: DFY_IMP and DFY_IMP_AT as set at IMP_GO -/
  armed : Option (Word × Word) := none
  /-- acting: its DFY_IMP, and the sweeps acted on so far -/
  active : Option Word := none
  done : Nat := 0
  setOk : Bool := false
  /-- UP_LAG in effect: as at the last admission point before the last release of frames (Table 8.11) -/
  upLag : Nat := 2
  deriving DecidableEq, Repr

structure Dfy where
  lanes : Tab LaneSt := []
  ports : Tab ImpSt := []
  /-- the equalisation table in force (R184), by entry -/
  eq : Tab EqEntry := []
  /-- assembled frames of the present sweep, by lane key -/
  asm : Tab DownFrame := []
  deriving DecidableEq, Repr

/-! ### Firefly (chapter 9) -/

structure DomSt where
  /-- Sync messages in succession, at most 3; the last one's instant, and its sync interval, ps -/
  run : Nat := 0
  last : Nat := 0
  interval : Nat := 0
  deriving DecidableEq, Repr

/-- An entry of the transmit time-stamp queue (R241). -/
structure TxStamp where
  seqId : Nat
  msgType : Nat
  port : Bool
  domB : Bool
  time : Nat
  deriving DecidableEq, Repr

structure Ffy where
  /-- Firefly time less the time since power-good, ns: steps and the backup counter move it -/
  offset : Int := 0
  domA : DomSt := {}
  domB : DomSt := {}
  txq : List TxStamp := []
  /-- stamps of messages sent that have not reached the queue yet, oldest first -/
  stamps : List TxStamp := []
  /-- the table of peer matching: domain (true: B) and port identity of each clock (R242) -/
  peers : List (Bool × BitVec 80) := []
  /-- a relock runs; instant at which the PLL reported lock (R238) -/
  relock : Bool := false
  lockAt : Option Nat := none
  /-- instant of the last release of the gated outputs (R238) -/
  releasedAt : Nat := 0
  /-- instant of the last move of RATE_ACT (R235) -/
  slewAt : Nat := 0
  /-- PPS_OUT and the instant of its fall (R249) -/
  pps : Bool := false
  ppsFall : Nat := 0
  deriving DecidableEq, Repr

/-! ### Cores (chapter 10) -/

/-- What an instruction in progress waits for. -/
inductive Wait where
  | none
  | wfi
  | evwait (rd : Nat) (mask : Word)
  | sweep (rd : Nat) (adm : Bool)
  /-- COMMIT with SH = 1: the admission point of sweep `k` (R276) -/
  | commit (rd : Nat) (k : Word)
  deriving DecidableEq, Repr

/-- An entry of the store buffer: an aligned word address, the bytes written, the data (R252). -/
structure SbEntry where
  addr : Nat
  mask : BitVec 4
  data : Word
  deriving DecidableEq, Repr

/-- The architectural state of a core (Table 10.1, Table 10.2). -/
structure CoreSt where
  g : Tab Word := []
  pc : Word := 0
  status : Word := 0
  epc : Word := 0
  cause : Word := 0
  eval : Word := 0
  xbase : Word := 0
  ien : Word := 0
  ipend : Word := 0
  scratch : Word := 0
  sb : List SbEntry := []
  resv : Option Nat := none
  /-- words the instruction cache holds as fetched, by address (R252, R266) -/
  icache : Tab (Option Word) := []
  /-- it runs (R253); halted for debug, or asked to (R282); halted by a nested exception (R263) -/
  run : Bool := false
  /-- RUN is 1 again, and the core starts at an address once the instruction in hand has ended and the
  stores from before have drained (R253) -/
  startDue : Bool := false
  bootAt : Word := 0
  halted : Bool := false
  haltReq : Bool := false
  nested : Bool := false
  wait : Wait := .none
  deriving DecidableEq, Repr

/-! ### Cyclic tasks (chapter 11) -/

structure TaskSt where
  /-- a written MODE that waits for its instant (R291) -/
  pend : Option Nat := none
  /-- Stop was entered while HELD, and the safe image is still to be written (R293, R297) -/
  safeDue : Bool := false
  done : Bool := false
  start : Word := 0
  deriving DecidableEq, Repr

/-! ### Hive (chapter 12) -/

/-- An item in service: its slot, and the flow it holds when its queue is ATOMIC. -/
structure SvcSt where
  slot : Nat
  flow : Option Nat
  deriving DecidableEq, Repr

structure HTask where
  flags : BitVec 64 := 0
  mask : BitVec 64 := 0
  group : Nat := 0
  aff : Nat := 0
  en : Bool := false
  deriving DecidableEq, Repr

structure HCore where
  offer : Option Nat := none
  cur : Option Nat := none
  credit : Tab Int := []
  last : Tab Nat := []
  deriving DecidableEq, Repr

structure Hive where
  /-- allocated item slots, rising (R301); link from a slot to the next (R299) -/
  used : List Nat := []
  link : Tab Nat := []
  /-- items in service by tag (R302) -/
  svc : Tab SvcSt := []
  tasks : Tab HTask := []
  cores : Tab HCore := []
  flush : Option Nat := none
  init : Bool := false
  /-- items queued on all queues together (R308) -/
  queued : Nat := 0
  /-- link words an injection has spoiled, by slot (R377) -/
  linkBad : List Nat := []
  /-- queues whose poisoned descriptor has been met and whose items are in HIV_STRAND (R307) -/
  stranded : List Nat := []
  deriving DecidableEq, Repr

/-! ### Moth and Termite (chapter 13) -/

/-- A record of the ring: its slot and its tag words, FLAGS without VALID (Table 13.2); `last`: this
write completes it (in alternate-half operation the odd sweep's). -/
structure RecSt where
  slot : Nat
  sweep : Word
  flags : Nat
  n : Nat
  last : Bool
  /-- of a record of the capture: its slot has been written again (R323) -/
  gone : Bool := false
  deriving DecidableEq, Repr

/-- The record that sweeps are being gathered into: first sweep, LATE, whether it is the trigger
record, the sweeps in it so far, and whether its write has begun. -/
structure OpenRec where
  slot : Nat
  sweep : Word
  late : Bool := false
  trig : Bool := false
  n : Nat := 0
  begun : Bool := false
  deriving DecidableEq, Repr

structure Mth where
  /-- EN and MODE in effect since the last admission point (R319) -/
  en : Bool := false
  red : Bool := false
  /-- the record whose write is under way, and the one being gathered -/
  writing : Option RecSt := none
  open_ : Option OpenRec := none
  /-- reports admitted for the present sweep: VCAP by cell ID (R315) -/
  rep : Tab Nat := []
  /-- reduced recording (R316): index and length of the present interval; minima and maxima by cell
  ID, 0xFFFF where no report was admitted -/
  ivIndex : Nat := 0
  ivLen : Nat := 64
  ivMin : Tab Nat := []
  ivMax : Tab Nat := []
  /-- trigger sources fired since the last commit point (Table 13.3) -/
  fired : Nat := 0
  /-- records completed since the capture was armed, newest first (R322) -/
  cap : List RecSt := []
  /-- the capture: records before the trigger record, whether that is complete, records after it, and
  how many of these are still to come -/
  pre : Nat := 0
  trigDone : Bool := false
  post : Nat := 0
  postLeft : Nat := 0
  deriving DecidableEq, Repr

/-- A part of a job's source that the engine has not read: a range of memory, a record, or a record that a
newer one had overwritten before the job began (R323). -/
inductive Piece where
  | mem (addr len : Nat)
  | record (r : RecSt)
  | lost
  deriving DecidableEq, Repr

/-- A Termite job (R325 to R330). -/
structure TrmJob where
  desc : Nat := 0
  op : Nat := 0
  src : Nat := 0
  level : Nat := 0
  trailer : Bool := false
  notify : Bool := false
  htask : Nat := 0
  hflag : Nat := 0
  /-- source parts still to read, oldest first, and records skipped since the last one read -/
  toRead : List Piece := []
  gap : Nat := 0
  /-- no more source comes, and the code the job then ends with -/
  closed : Bool := false
  code : Nat := 0
  /-- compression: the bits of an output byte begun, the last 32 KiB of closed input and the input of
  the block not yet closed, both newest byte first -/
  bits : List Bool := []
  hist : List Byte := []
  block : List Byte := []
  /-- output not yet placed in the chain -/
  output : List Byte := []
  /-- CRC-32 of the uncompressed data before the final inversion (R326) -/
  crc : Word := 0xFFFFFFFF
  inBytes : Nat := 0
  outBytes : Nat := 0
  /-- the chain entry in use: its address, where the next byte goes, bytes left, HOST -/
  entry : Nat := 0
  dest : Nat := 0
  left : Nat := 0
  host : Bool := false
  /-- an entry with HOST has been used -/
  hostUsed : Bool := false
  deriving DecidableEq, Repr

/-! ### Twin (chapter 14) -/

/-- How far a planned handover has come (R348). -/
inductive Handover where
  | none
  /-- STANDBY: a REQ goes with the next beat -/
  | req
  /-- ACTIVE: ANN(H) is sent; STANDBY: ANN(H) has been received, and ACK or NAK is sent -/
  | ann
  /-- ACTIVE: GO(H) is sent; STANDBY: GO(H) has been received -/
  | go
  deriving DecidableEq, Repr

structure Twn where
  /-- instant ACT_IN_N last changed, whether a conflict has been told since, and whether it makes the
  module NONE at the next admission point (R335) -/
  actInAt : Nat := 0
  conflictTold : Bool := false
  conflict : Bool := false
  /-- a valid beat of the partner has been received -/
  seen : Bool := false
  /-- TWN_CFG has been reported for equal UNITs (R334) -/
  unitTold : Bool := false
  /-- the period and ST_N that the capacity check of R338 was made for last -/
  fitFor : Option (Nat × Nat) := none
  /-- ACT_OUT_N is driven low (R333); instant of the last committed sweep, and of the last change of
  the role -/
  actOut : Bool := false
  lastCommit : Option Nat := none
  roleAt : Nat := 0
  /-- SWEEP and BEAT of the newest valid beats received, newest first, at most 4, and of the last own beat
  instant; misses in succession; READY_SB at the last valid beat (R343) -/
  beats : List (Word × Nat) := []
  lastBeat : Option (Word × Nat) := none
  misses : Nat := 0
  readyAtBeat : Bool := false
  /-- own beat arrival offset, signed ns (R342) -/
  arrival : Int := 0
  /-- the newest complete record, whether one arrived since the last admission point, and whether one
  did before each of the last 16, newest first (R339, R342) -/
  record : List Byte := []
  recNew : Bool := false
  recHist : List Bool := []
  ho : Handover := .none
  /-- ACTIVE: the partner's last answer is ACK(H) -/
  hoAck : Bool := false
  /-- the next beat instant within the sweep, and its number -/
  nextBeat : Option Nat := none
  beatNo : Nat := 0
  /-- the sweep of the commit point whose beats are sent (Table 14.2) -/
  beatSweep : Word := 0
  /-- the header and the record sent last (R336, R337) -/
  sent : Option (BitVec 128) := none
  sentRec : List Byte := []
  /-- SWM_CF values of the last record, by cell ID, and the next bulk unit in rotation -/
  cfSent : Tab Word := []
  bulk : Nat := 0
  /-- since when the conditions of the preferred-unit return hold (R347) -/
  freeFrom : Option Nat := none
  /-- the sweep of the last takeover or handover that made the module ACTIVE, and the same while
  MISMATCH is withheld (R340, R345) -/
  upFrom : Option Word := none
  grace : Option Word := none
  deriving DecidableEq, Repr

/-! ### Mantis and Cicada (chapter 15) -/

structure FuncSt where
  /-- instants of the last rise of channel A and of channel B (R356) -/
  riseA : Option Nat := none
  riseB : Option Nat := none
  deriving DecidableEq, Repr

structure Mts where
  /-- input levels at the contacts; as evaluated (a channel keeps its level through its own pulse,
  R355), with the instant, ps, of each input's last change; and as filtered -/
  pins : BitVec 16 := 0
  evald : BitVec 16 := 0
  levelAt : Tab Nat := []
  filt : BitVec 16 := 0
  funcs : Tab FuncSt := []
  /-- instant, ps, at which a write of the parameter block last changed whether an input shows demand (R353) -/
  shownAt : Tab Nat := []
  /-- latched demand sources, in the order they were latched (Table 15.1) -/
  demands : List Nat := [0x14, 0x13]
  /-- test pulses: TPA, TPB low; instants of their last start and end; own channels held -/
  tpaLow : Bool := false
  tpbLow : Bool := false
  tpaAt : Option Nat := none
  tpbAt : Option Nat := none
  tpaEnd : Nat := 0
  tpbEnd : Nat := 0
  heldA : Bool := false
  heldB : Bool := false
  /-- levels at the contacts at the last pulse's start -/
  atStart : BitVec 16 := 0
  /-- a pending RESET (R359): its pulses A and B (0 awaited, 1 begun, 2 ended), and whether a demand
  has arisen since its request -/
  reset : Bool := false
  resetA : Nat := 0
  resetB : Nat := 0
  resetEnd : Nat := 0
  resetSpoiled : Bool := false
  /-- supervision of the safety core (R363): whether windows are checked, start of the window,
  writes in it, a complement that did not match, windows that differed in a row, windows passed
  since RUN, and the last write -/
  bsSup : Bool := false
  bsWinAt : Nat := 0
  bsWrites : Nat := 0
  bsBadCompl : Bool := false
  bsDiverge : Nat := 0
  bsGood : Nat := 0
  bsDem : Word := 0
  /-- BS's local memory: the words written since the stored image was loaded, and whether it was (R362) -/
  bsMem : Tab (Option Word) := []
  bsLoaded : Bool := false
  /-- safety messages (R365, R366): the last accepted SEQ; the port and BITS of each message taken, by
  SEQ; a message that waits to be one of a pair, when the timeout began, the SEQ to send next, and whether a timeout was told -/
  smSeq : Word := 0
  smSeen : Tab (Option (Bool × Nat)) := []
  smPrev : Option (Word × Nat) := none
  smFrom : Nat := 0
  smSeqTx : Word := 0
  smTold : Bool := false
  /-- the Mantis non-volatile store (R368 to R370): parameter block by register offset, and the
  confirmed value -/
  nvBlock : Tab Word := []
  nvConf : Option Word := none
  /-- safety frame slots of the two ports, by slot address (R413) -/
  slots : Tab Byte := []
  deriving DecidableEq, Repr

/-- A log entry of Cicada (R375). -/
structure LogEntry where
  time : Nat
  line : Nat
  detail : Nat
  sweep : Word
  deriving DecidableEq, Repr

structure Ccd where
  log : Tab LogEntry := []
  /-- BLOCK and TRIP reactions waiting for the next admission point (R372) -/
  block : Bool := false
  trip : Bool := false
  deriving DecidableEq, Repr

/-! ### Module (chapter 16) -/

/-- Whether the module is powered, and how far it has come (Tables 16.2 and 16.5). -/
inductive Power where
  | off
  | starting
  | ready
  deriving DecidableEq, Repr

structure Mod where
  power : Power := .starting
  /-- PRESENT_N low, and the instant of its last change; since when VIN12 has been at or above 10.5 V
  (R381), and since when below 10.0 V (R384) -/
  presentLow : Bool := true
  presentAt : Nat := 0
  vinFrom : Option Nat := some 0
  vinLow : Option Nat := none
  /-- the READY pin: none at high impedance, from power-fail to power-good (Table 18.6) -/
  readyPin : Option Bool := some false
  /-- the slot being loaded and those still to try after it (R392); instant B0 started unconfirmed
  (R394) -/
  slots : List Nat := []
  waitHost : Bool := false
  confirmFrom : Option Nat := none
  /-- the boot record: PREF, SRC, TRIES_A, TRIES_B (R392, R395), and the stored RWL values (R390) -/
  recPref : Bool := false
  recSrc : Bool := false
  triesA : Nat := 0
  triesB : Nat := 0
  rwl : Tab Word := []
  /-- a flash command runs: erase or program, sector, source -/
  fcmd : Option (Bool × Nat × Nat) := none
  /-- retention: fence closed, closing record, latch tripped (R386, R387) -/
  fence : Bool := true
  closing : Bool := false
  latch : Bool := true
  /-- backup counter: Firefly time at power-fail, whether a domain was valid then, and the instant
  (R385, R388); the outage in ns -/
  backup : Nat := 0
  traceable : Bool := false
  failAt : Nat := 0
  outage : Nat := 0
  vinOut : Bool := false
  tempOver : Bool := false
  bakLow : Bool := false
  readyAt : Nat := 0
  deriving DecidableEq, Repr

/-! ### Host, Ethernet, PWM (chapter 17) -/

/-- An outstanding DMA read: channel, SRAM address, bytes (R404, R406); channel 8 is a request whose
work has ended. -/
structure TagSt where
  ch : Nat
  addr : Nat
  len : Nat
  at_ : Nat
  deriving DecidableEq, Repr

structure DmaSt where
  desc : Nat := 0
  busy : Bool := false
  toHost : Bool := false
  notify : Bool := false
  len : Nat := 0
  host : Nat := 0
  sram : Nat := 0
  issued : Nat := 0
  done : Nat := 0
  next : Nat := 0
  /-- the code the descriptor will end with -/
  code : Nat := 0
  deriving DecidableEq, Repr

structure Hst where
  dma : Tab DmaSt := []
  tags : Tab TagSt := []
  /-- bytes the device has written to host memory, by host bus address -/
  hostMem : Tab Byte := []
  msixEn : Bool := false
  fnMask : Bool := false
  /-- maximum read request size, 128 << mrrs bytes -/
  mrrs : Nat := 2
  /-- vectors sent, newest first -/
  sent : List Nat := []
  ticks : Nat := 0
  /-- what the last read of the host interface returned -/
  rdata : Word := 0
  deriving DecidableEq, Repr

structure EthSt where
  rxHead : Nat := 0
  txHead : Nat := 0
  /-- frames sent, newest first -/
  tx : List (List Byte) := []
  deriving DecidableEq, Repr

structure PwmSt where
  /-- settings loaded at the last period start or sync (R415) -/
  per : Nat := 4000
  duty : Nat := 0
  ph : Nat := 0
  running : Bool := false
  /-- the tick with which a channel whose EN has gone to 1 starts, ps (R415) -/
  startAt : Option Nat := none
  /-- the counter at an instant, ps -/
  base : Nat := 0
  baseAt : Nat := 0
  /-- start of the present continuously active time, and of a bootstrap pulse (R418) -/
  activeFrom : Option Nat := none
  boot : Option Nat := none
  /-- high impedance by the fault input, by Mantis, and outside READY (R417) -/
  hizFlt : Bool := false
  /-- FLT has been cleared: the channel drives its output again from its next period start (R417) -/
  fltOver : Bool := false
  hizMts : Bool := false
  hizPwr : Bool := true
  /-- the level that the output holds through a freeze (R419) -/
  held : Option Bool := none
  deriving DecidableEq, Repr

structure Pwm where
  ch : Tab PwmSt := []
  /-- PWM_FLT_N has been low for the filter time (R417) -/
  fltLow : Bool := false
  deriving DecidableEq, Repr

/-- Error injection and memory checking (R25, R26, R377). -/
structure Ecc where
  /-- 8-byte words with a single-bit error, and uncorrectable (poisoned) words, both rising, as
  byte address / 8 -/
  ce : List Nat := []
  ue : List Nat := []
  /-- next line of the scrub, the end of the last pass (R26), and the scrub's deferrals to the data
  plane (R16) -/
  scrubAt : Nat := 0
  passAt : Nat := 0
  deferred : Nat := 0
  deriving DecidableEq, Repr

/-- The device. `pending` is the queue of commands, `free` the model's own counter that free values
are drawn with. -/
structure State where
  pending : List Instr
  /-- time since power-good in ps, as Firefly's PLL counts it (R233) -/
  now : Nat
  /-- registers that differ from their reset values, by BAR0 offset -/
  regs : Tab Word
  /-- the registers as they stood at the last admission point, the values of R57 and R173 -/
  eff : Tab Word
  /-- _HI values latched by a read of _LO, and written ahead of _LO (R11), by offset of _HI -/
  hiLatch : Tab (Option Word)
  hiStage : Tab (Option Word)
  /-- SRAM and retention SRAM, by core address; an unlisted byte reads 0 (R389) -/
  mem : List Host.Cell
  /-- boot flash, by byte offset; an unlisted byte reads 0xFF, the erased state -/
  flash : Tab Byte
  /-- BS's local memory is the MTS window of `regs` -/
  ecc : Ecc
  crk : Crk
  cells : Tab CellSt
  arms : Tab ArmSt
  dcal : Dcal
  hrn : Hrn
  hooks : Tab VecSt
  convs : Tab ConvSt
  pairs : Tab PairSt
  lcw : Tab LcwSlot
  dfy : Dfy
  ffy : Ffy
  cores : Tab CoreSt
  tasks : Tab TaskSt
  hive : Hive
  mth : Mth
  trm : Tab TrmJob
  twn : Twn
  mts : Mts
  ccd : Ccd
  mod : Mod
  hst : Hst
  eth : Tab EthSt
  pwm : Pwm
  free : Nat
  deriving DecidableEq, Repr

/-- The device right after reset: the instant of power-good (R381), with every register at the
value of its reset column, start-up under way, nothing retained, nothing in flash and nothing in
Mantis's store. -/
def State.reset : State where
  pending := []
  now := 0
  regs := []
  eff := []
  hiLatch := []
  hiStage := []
  mem := []
  flash := []
  ecc := {}
  crk := {}
  cells := []
  arms := []
  dcal := {}
  hrn := {}
  hooks := []
  convs := []
  pairs := []
  lcw := []
  dfy := {}
  ffy := {}
  cores := []
  tasks := []
  hive := {}
  mth := {}
  trm := []
  twn := {}
  mts := {}
  ccd := {}
  mod := {}
  hst := {}
  eth := []
  pwm := {}
  free := 0

end Sys2Proof.Machine
end

