-- ==== Sys2Proof/Machine/Tab.lean ====
section
/-!
DEFINITION. Sparse tables: reading, writing, and the canonical form they keep (keys strictly rising,
no entry equal to what an unlisted key reads as). `d` says what an unlisted key reads as.
-/

namespace Sys2Proof.Machine

/-- The value at a key. -/
def tget {α : Type} (d : Nat → α) : Tab α → Nat → α
  | [], k => d k
  | (k', v) :: r, k => if k = k' then v else tget d r k

/-- The table with an entry put in its place among rising keys. -/
def tput {α : Type} (k : Nat) (v : α) : Tab α → Tab α
  | [] => [(k, v)]
  | (k', v') :: r =>
    if k < k' then (k, v) :: (k', v') :: r
    else if k = k' then (k, v) :: r
    else (k', v') :: tput k v r

/-- The table without a key's entry. -/
def tdel {α : Type} (k : Nat) : Tab α → Tab α
  | [] => []
  | (k', v') :: r => if k = k' then tdel k r else (k', v') :: tdel k r

/-- The table with a value put at a key; the value an unlisted key reads as takes no entry. -/
def tset {α : Type} [DecidableEq α] (d : Nat → α) (k : Nat) (v : α) (m : Tab α) : Tab α :=
  if v = d k then tdel k m else tput k v m

/-- Whether every key of the table lies above a bound (`none`: no bound), the keys rise strictly and
no entry equals what an unlisted key reads as. -/
def twfFrom {α : Type} [DecidableEq α] (d : Nat → α) : Option Nat → Tab α → Bool
  | _, [] => true
  | b, (k, v) :: r =>
    (match b with
      | none => true
      | some x => decide (x < k)) && decide (v ≠ d k) && twfFrom d (some k) r

/-- The canonical form of a table. -/
def twf {α : Type} [DecidableEq α] (d : Nat → α) (m : Tab α) : Bool := twfFrom d none m

/-- A sorted list of keys with one more. -/
def kins (k : Nat) : List Nat → List Nat
  | [] => [k]
  | x :: r => if k < x then k :: x :: r else if k = x then x :: r else x :: kins k r

/-- A sorted list of keys with one less. -/
def kdel (k : Nat) (l : List Nat) : List Nat := l.filter (fun x => !(x == k))

/-- Apply a function to every index below `n`, in rising order. -/
def forN {σ : Type} (n : Nat) (f : Nat → σ → σ) (s : σ) : σ :=
  (List.range n).foldl (fun acc i => f i acc) s

/-- Apply a function to every element of a list, in order. -/
def forL {α σ : Type} (l : List α) (f : α → σ → σ) (s : σ) : σ :=
  l.foldl (fun acc x => f x acc) s

/-- Insertion sort by a Boolean order, stable. -/
def insBy {α : Type} (le : α → α → Bool) (x : α) : List α → List α
  | [] => [x]
  | y :: r => if le x y then x :: y :: r else y :: insBy le x r

/-- The list sorted by an order, equal elements in their order of standing. -/
def sortBy {α : Type} (le : α → α → Bool) (l : List α) : List α := l.foldr (insBy le) []

/-- The list with element `i` replaced. -/
def setAt {α : Type} (l : List α) (i : Nat) (x : α) : List α := l.set i x

end Sys2Proof.Machine
end

