-- ==== Sys2Proof/Machine/Ops.lean ====
section
/-!
DEFINITION. The named operations over registers, memory and the parts of the state, and the two
reactions every unit shares: a report to Cicada (R371 to R375) and a demand of Mantis (R357, R358).
-/

namespace Sys2Proof.Machine

/-! ### Registers -/

/-- The value a register holds. -/
def State.reg (s : State) (a : Nat) : Word := tget regReset s.regs a

/-- The state with a register's value replaced. -/
def State.setReg (s : State) (a : Nat) (v : Word) : State :=
  { s with regs := tset regReset a v s.regs }

/-- The value a register had at the last admission point (R57, R173). -/
def State.effReg (s : State) (a : Nat) : Word := tget regReset s.eff a

/-- The bits of a word from `lo` on, `w` of them, as a number. -/
def bitsOf (x : Word) (lo w : Nat) : Nat := (x.toNat >>> lo) % 2 ^ w

/-- The word whose `w` bits from `lo` on are all 1. -/
def maskOf (lo w : Nat) : Word := BitVec.ofNat 32 ((2 ^ w - 1) <<< lo)

/-- The word with a number put in the `w` bits from `lo` on. -/
def putBits (x : Word) (lo w v : Nat) : Word :=
  (x &&& ~~~(maskOf lo w)) ||| (BitVec.ofNat 32 ((v % 2 ^ w) <<< lo))

/-- A field's value. -/
def State.fld (s : State) (x : Fld) : Nat := bitsOf (s.reg x.addr) x.lo x.width

/-- A field's value at the last admission point. -/
def State.effFld (s : State) (x : Fld) : Nat := bitsOf (s.effReg x.addr) x.lo x.width

/-- Whether a field is not 0. -/
def State.flag (s : State) (x : Fld) : Bool := s.fld x != 0

/-- Whether bit `i` of a field is 1. -/
def State.flagBit (s : State) (x : Fld) (i : Nat) : Bool := (s.fld x).testBit i

/-- The state with a field's value replaced. -/
def State.setFld (s : State) (x : Fld) (v : Nat) : State :=
  s.setReg x.addr (putBits (s.reg x.addr) x.lo x.width v)

/-- The state with a one-bit field set or cleared. -/
def State.setFlag (s : State) (x : Fld) (b : Bool) : State := s.setFld x (if b then 1 else 0)

/-- The state with bit `i` of a field set or cleared. -/
def State.setFlagBit (s : State) (x : Fld) (i : Nat) (b : Bool) : State :=
  s.setFld { x with lo := x.lo + i, width := 1 } (if b then 1 else 0)

/-- A counter field raised by `n`; it stops at its largest value. -/
def State.bump (s : State) (x : Fld) (n : Nat) : State :=
  s.setFld x (satAdd (2 ^ x.width - 1) (s.fld x) n)

/-- A field read as two's complement. -/
def State.fldS (s : State) (x : Fld) : Int := (BitVec.ofNat x.width (s.fld x)).toInt

/-- A signed value as a register field. -/
def State.setFldS (s : State) (x : Fld) (v : Int) : State :=
  s.setFld x (BitVec.ofInt x.width v).toNat

/-- A 64-bit register pair, from the offset of its _LO register. -/
def State.reg64 (s : State) (a : Nat) : BitVec 64 := s.reg (a + 4) ++ s.reg a

/-- The state with a 64-bit register pair written. -/
def State.setReg64 (s : State) (a : Nat) (v : BitVec 64) : State :=
  (s.setReg a (v.extractLsb' 0 32)).setReg (a + 4) (v.extractLsb' 32 32)

/-! ### Parts of the state, by index -/

/-- The cell ID of an arm's slot (R5). -/
def cellId (arm slot : Nat) : Nat := arm * 1024 + slot

def State.cell (s : State) (i : Nat) : CellSt := tget (fun _ => {}) s.cells i
def State.setCell (s : State) (i : Nat) (c : CellSt) : State :=
  { s with cells := tset (fun _ => {}) i c s.cells }
def State.arm (s : State) (n : Nat) : ArmSt := tget (fun _ => {}) s.arms n
def State.setArm (s : State) (n : Nat) (a : ArmSt) : State :=
  { s with arms := tset (fun _ => {}) n a s.arms }
def State.conv (s : State) (c : Nat) : ConvSt := tget (fun _ => {}) s.convs c
def State.setConv (s : State) (c : Nat) (v : ConvSt) : State :=
  { s with convs := tset (fun _ => {}) c v s.convs }
def State.pair (s : State) (k : Nat) : PairSt := tget (fun _ => {}) s.pairs k
def State.setPair (s : State) (k : Nat) (v : PairSt) : State :=
  { s with pairs := tset (fun _ => {}) k v s.pairs }
def State.lslot (s : State) (k : Nat) : LcwSlot := tget (fun _ => {}) s.lcw k
def State.setLslot (s : State) (k : Nat) (v : LcwSlot) : State :=
  { s with lcw := tset (fun _ => {}) k v s.lcw }
def State.hook (s : State) (n : Nat) : VecSt := tget (fun _ => {}) s.hooks n
def State.setHook (s : State) (n : Nat) (v : VecSt) : State :=
  { s with hooks := tset (fun _ => {}) n v s.hooks }
/-- A lane's key: 16 × port + lane, with CK as lane 8. -/
def laneKey (p l : Nat) : Nat := 16 * p + l
def State.lane (s : State) (p l : Nat) : LaneSt := tget (fun _ => {}) s.dfy.lanes (laneKey p l)
def State.setLane (s : State) (p l : Nat) (v : LaneSt) : State :=
  { s with dfy := { s.dfy with lanes := tset (fun _ => {}) (laneKey p l) v s.dfy.lanes } }
def State.imp (s : State) (p : Nat) : ImpSt := tget (fun _ => {}) s.dfy.ports p
def State.setImp (s : State) (p : Nat) (v : ImpSt) : State :=
  { s with dfy := { s.dfy with ports := tset (fun _ => {}) p v s.dfy.ports } }
def State.core (s : State) (n : Nat) : CoreSt := tget (fun _ => {}) s.cores n
def State.setCore (s : State) (n : Nat) (c : CoreSt) : State :=
  { s with cores := tset (fun _ => {}) n c s.cores }
def State.task (s : State) (t : Nat) : TaskSt := tget (fun _ => {}) s.tasks t
def State.setTask (s : State) (t : Nat) (v : TaskSt) : State :=
  { s with tasks := tset (fun _ => {}) t v s.tasks }
def State.htask (s : State) (t : Nat) : HTask := tget (fun _ => {}) s.hive.tasks t
def State.setHtask (s : State) (t : Nat) (v : HTask) : State :=
  { s with hive := { s.hive with tasks := tset (fun _ => {}) t v s.hive.tasks } }
def State.hcore (s : State) (n : Nat) : HCore := tget (fun _ => {}) s.hive.cores n
def State.setHcore (s : State) (n : Nat) (v : HCore) : State :=
  { s with hive := { s.hive with cores := tset (fun _ => {}) n v s.hive.cores } }
def State.func (s : State) (f : Nat) : FuncSt := tget (fun _ => {}) s.mts.funcs f
def State.setFunc (s : State) (f : Nat) (v : FuncSt) : State :=
  { s with mts := { s.mts with funcs := tset (fun _ => {}) f v s.mts.funcs } }
def State.dma (s : State) (c : Nat) : DmaSt := tget (fun _ => {}) s.hst.dma c
def State.setDma (s : State) (c : Nat) (v : DmaSt) : State :=
  { s with hst := { s.hst with dma := tset (fun _ => {}) c v s.hst.dma } }
def State.ethp (s : State) (p : Nat) : EthSt := tget (fun _ => {}) s.eth p
def State.setEthp (s : State) (p : Nat) (v : EthSt) : State :=
  { s with eth := tset (fun _ => {}) p v s.eth }
def State.pwmCh (s : State) (n : Nat) : PwmSt := tget (fun _ => {}) s.pwm.ch n
def State.setPwmCh (s : State) (n : Nat) (v : PwmSt) : State :=
  { s with pwm := { s.pwm with ch := tset (fun _ => {}) n v s.pwm.ch } }
def State.cal (s : State) (i : Nat) : CalSt := tget (fun _ => {}) s.dcal.cells i
def State.setCal (s : State) (i : Nat) (v : CalSt) : State :=
  { s with dcal := { s.dcal with cells := tset (fun _ => {}) i v s.dcal.cells } }

/-! ### Time -/

/-- One nanosecond, microsecond and millisecond in ps. -/
def psNs : Nat := 1000
def psUs : Nat := 1000000
def psMs : Nat := 1000000000

/-- Firefly time in ps (R233). -/
def State.ffyPs (s : State) : Int := s.now + s.ffy.offset * 1000

/-- Firefly time truncated to whole nanoseconds, 64 bits (R233). -/
def State.ns (s : State) : Nat := (BitVec.ofInt 64 (s.ffyPs / 1000)).toNat

/-- Firefly short time (R234). -/
def State.shortTime (s : State) : Word := BitVec.ofNat 32 s.ns

/-- The state at an instant, or later when that instant has passed. -/
def State.reach (s : State) (t : Nat) : State := { s with now := max s.now t }

/-- A free value drawn: the counter moves on. -/
def State.draw (s : State) : State := { s with free := s.free + 1 }

/-! ### The sweep and the operating state -/

/-- The operating state's code (Table 2.2). -/
def State.opState (s : State) : Nat := s.fld F.CRK_STATE_STATE
def stBlocked : Nat := 0
def stPrecharge : Nat := 1
def stReady : Nat := 2
def stDeblocked : Nat := 3
def stTripped : Nat := 4
def stServicing : Nat := 5

/-- Whether the operating state is Blocked or Servicing. -/
def State.quiet (s : State) : Bool :=
  s.opState == stBlocked || s.opState == stServicing

/-- CRK_CTL.RUN. -/
def State.running (s : State) : Bool := s.flag F.CRK_CTL_RUN

/-- The sweep period in ns (R32). -/
def State.period (s : State) : Nat := s.fld F.CRK_PERIOD_PERIOD_NS

/-- Alternate-half operation: a period below 1,600 ns (R32). -/
def State.alt (s : State) : Bool := decide (s.period < 1600)

/-- The commit point after the admission point, in ns (Table 2.1). -/
def State.commitNs (s : State) : Nat := if s.alt then 660 else 700

/-- CRK_SWEEP.COUNT. -/
def State.sweep (s : State) : Word := s.reg R.CRK_SWEEP

/-! ### Twin role (Table 14.1) -/

def roleNone : Nat := 0
def roleStandby : Nat := 1
def roleActive : Nat := 2
def roleArming : Nat := 3

def State.role (s : State) : Nat := s.fld F.TWN_STAT_ROLE
def State.active (s : State) : Bool := s.role == roleActive

/-! ### On-chip memory (R22, R25) -/

/-- One byte of the on-chip memory. An unlisted byte reads 0: start-up zeroes the banks (R389). -/
def State.rd8 (s : State) (a : Nat) : Byte := tget (fun _ => 0) s.mem a

/-- The state with one byte of memory written. -/
def State.wr8 (s : State) (a : Nat) (b : Byte) : State :=
  { s with mem := tset (fun _ => 0) a b s.mem }

/-- Whether an address lies in memory that may be used: the retention SRAM, or a bank of the main SRAM
whose test has passed (R23, Table 16.5). -/
def State.bankOpen (s : State) (a : Nat) : Bool :=
  decide (0x08000000 ≤ a) ||
    (!(s.flagBit F.GCR_BANK_BANK_BUSY (a / 0x1000000)) && !(s.flagBit F.GCR_BANK_BANK_FAIL (a / 0x1000000)))

/-- A byte as an access reads it: of a bank that is not to be used, a free value. -/
def State.ld8 (s : State) (a : Nat) : Byte := if s.bankOpen a then s.rd8 a else Config.isolatedByte a

/-- `n` bytes from an address on, as an access reads them. -/
def State.rdBytes (s : State) (a n : Nat) : List Byte := (List.range n).map (fun i => s.ld8 (a + i))

/-- Bytes written from an address on; a bank that is not to be used takes none (R23). -/
def State.wrBytes (s : State) (a : Nat) : List Byte → State
  | [] => s
  | b :: r => (if s.bankOpen a then s.wr8 a b else s).wrBytes (a + 1) r

/-- The number little-endian bytes stand for (R12). -/
def leNat : List Byte → Nat
  | [] => 0
  | b :: r => b.toNat + 256 * leNat r

/-- A number as `n` little-endian bytes (R12). -/
def leBytes : Nat → Nat → List Byte
  | 0, _ => []
  | n + 1, x => BitVec.ofNat 8 x :: leBytes n (x / 256)

/-- A little-endian number of `n` bytes in memory. -/
def State.rdN (s : State) (a n : Nat) : Nat := leNat (s.rdBytes a n)
def State.rd16 (s : State) (a : Nat) : Nat := s.rdN a 2
def State.rd32 (s : State) (a : Nat) : Word := BitVec.ofNat 32 (s.rdN a 4)

/-- Whether a read of `n` bytes from `a` on meets a poisoned ECC word. -/
def State.poisoned (s : State) (a n : Nat) : Bool :=
  s.ecc.ue.any (fun w => decide (w * 8 < a + n) && decide (a < w * 8 + 8))

/-- The end of the on-chip memory (Table 1.6). -/
def memEnd : Nat := 0x08200000

/-- A write of whole bytes with the checks of R269, R377: words it covers wholly lose their poison; a
partial write of a poisoned word is not made here (the caller looks first). -/
def State.clearPoison (s : State) (a n : Nat) : State :=
  { s with ecc := { s.ecc with
      ue := s.ecc.ue.filter (fun w => !(decide (a ≤ w * 8) && decide (w * 8 + 8 ≤ a + n)))
      ce := s.ecc.ce.filter (fun w => !(decide (a ≤ w * 8) && decide (w * 8 + 8 ≤ a + n))) } }

/-- R377: an armed injection with TARGET 1 or 2 is consumed by the next write to its bank. The word at the
write's first byte takes it (DESIGN CHOICE: assumption 309). -/
def State.consumeInj (s : State) (a : Nat) : State :=
  let t := s.fld F.CCD_INJ_TARGET
  if s.flag F.CCD_INJ_ARM && (t == 1 || t == 2) && decide (a < 0x08000000) && s.bankOpen a &&
      (a / 0x1000000 == s.fld F.CCD_INJ_BANK) then
    let s := if t == 1 then { s with ecc := { s.ecc with ce := kins (a / 8) s.ecc.ce } }
             else { s with ecc := { s.ecc with ue := kins (a / 8) s.ecc.ue } }
    (s.setFlag F.CCD_INJ_ARM false).setFlag F.CCD_INJ_DONE true
  else s

/-- How many entries of its arm's cell table a refresh that has not been switched in has copied: a free
value while the copy runs, all of them once it is complete (R87, R88). -/
def State.copied (s : State) (arm : Nat) : Nat :=
  let m := s.fld (F.SWM_CFG_N_SLOTS.up (0x4000 * arm))
  if (s.arm arm).refresh then min m (Config.freeCopied s.free)
  else if (s.arm arm).tableNew.isSome then m
  else 0

/-- A write into a cell table: a refresh of its arm that has copied an entry it reaches starts over from slot
0, and DIRTY is set (R88). The calibration's own store of DELAY counts as one too (DESIGN CHOICE: assumption
72). -/
def State.touchTable (s : State) (a n arm : Nat) : State :=
  let base := 0x04000000 + 0x100000 * arm
  let x := s.arm arm
  if (x.refresh || x.tableNew.isSome) && decide (a < base + 0x4000) && decide (base < a + n) then
    (if a < base + 16 * s.copied arm then
      (s.setArm arm { x with refresh := true, tableNew := none }).setFlag (F.SWM_TBL_DIRTY.up (0x4000 * arm)) true
     else s).draw
  else s

/-- A reservation on a word that a write reaches is lost (R268). -/
def State.loseResv (s : State) (a n : Nat) : State :=
  forN 8 (fun k s =>
    match (s.core k).resv with
    | some w => if w < a + n ∧ a < w + 4 then s.setCore k { s.core k with resv := none } else s
    | none => s) s

/-- A read of `n` bytes corrects single-bit errors and counts them (R25). -/
def State.correct (s : State) (a n : Nat) : State :=
  let hit := fun w => decide (w * 8 < a + n) && decide (a < w * 8 + 8)
  let k := (s.ecc.ce.filter hit).length
  if k = 0 then s
  else ({ s with ecc := { s.ecc with ce := s.ecc.ce.filter (fun w => !(hit w)) } }).bump F.GCR_ECC_CE_COUNT k

/-- The ECC words that a write of `n` bytes covers in part are read, to merge it into them (R25). -/
def State.mergeRead (s : State) (a n : Nat) : State :=
  if n = 0 then s
  else
    let s := if a % 8 = 0 then s else s.correct a 1
    if (a + n) % 8 = 0 then s else s.correct (a + n - 1) 1

/-- Bytes stored in memory: words covered in part are read too, poison is cleared where whole ECC words are
covered, an armed injection is consumed, reservations on the words are lost, and a refresh that has copied
them starts over. -/
def State.storeOpen (s : State) (a : Nat) (bs : List Byte) : State :=
  let s := (((s.wrBytes a bs).mergeRead a bs.length).clearPoison a bs.length).consumeInj a
  forN 6 (fun arm s => s.touchTable a bs.length arm) (s.loseResv a bs.length)

/-- Bytes stored in memory; the retention SRAM takes none while its fence is closed (R386). -/
def State.store (s : State) (a : Nat) (bs : List Byte) : State :=
  if s.mod.fence && decide (0x08000000 ≤ a) then s else s.storeOpen a bs

/-- R377 for TARGETs 3 to 6: whether such an injection is armed; it is then consumed. -/
def State.injected (s : State) (t : Nat) : Bool :=
  s.flag F.CCD_INJ_ARM && (s.fld F.CCD_INJ_TARGET == t)
def State.injDone (s : State) : State :=
  (s.setFlag F.CCD_INJ_ARM false).setFlag F.CCD_INJ_DONE true

/-! ### Interrupts to cores and to the host -/

/-- An IPEND bit set on a core (Table 10.9). -/
def State.ipend (s : State) (n bit : Nat) : State :=
  let c := s.core n
  s.setCore n { c with ipend := c.ipend ||| BitVec.ofNat 32 (2 ^ bit) }

/-- A pending bit of the MSI-X PBA set (R408). -/
def State.vector (s : State) (v : Nat) : State :=
  let a := R.HST_PBA + 4 * (v / 32)
  s.setReg a (s.reg a ||| BitVec.ofNat 32 (2 ^ (v % 32)))

/-- A Moth trigger source fired (Table 13.3). -/
def State.mothFire (s : State) (b : Nat) : State :=
  { s with mth := { s.mth with fired := s.mth.fired ||| 2 ^ b } }

/-! ### Capture (R248) -/

/-- The event of capture channel `n`'s source: Firefly time is latched, or OVR set while VALID. -/
def capture (n : Nat) (s : State) : State :=
  if s.flag (F.FFY_CAP_CTL_VALID.up (0x10 * n)) then s.setFlag (F.FFY_CAP_CTL_OVR.up (0x10 * n)) true
  else (s.setReg64 (R.FFY_CAP_LO + 0x10 * n) (BitVec.ofNat 64 s.ns)).setFlag
    (F.FFY_CAP_CTL_VALID.up (0x10 * n)) true

/-- The event of source `k` of Table 9.2: every channel whose SRC names it takes it. -/
def State.captureSrc (s : State) (k : Nat) : State :=
  forN 8 (fun n s => if s.fld (F.FFY_CAP_CTL_SRC.up (0x10 * n)) = k then capture n s else s) s

/-! ### Cicada (R371 to R375) -/

/-- The register offset and bit of a line's status. -/
def lineStat (line : Nat) : Fld := ⟨R.CCD_STAT0 + 4 * (line / 32), line % 32, 1⟩
/-- A line's entry in CCD_RCT. -/
def lineClass (line : Nat) : Fld := ⟨R.CCD_RCT + 4 * (line / 4), 8 * (line % 4), 3⟩
def lineMoth (line : Nat) : Fld := ⟨R.CCD_RCT + 4 * (line / 4), 8 * (line % 4) + 3, 1⟩
def lineMask (line : Nat) : Fld := ⟨R.CCD_RCT + 4 * (line / 4), 8 * (line % 4) + 4, 1⟩

/-- Whether a line makes ERR_N low: status 1, class ALARM or above, not masked (R374). -/
def State.lineErr (s : State) (l : Nat) : Bool :=
  s.flag (lineStat l) && decide (1 ≤ s.fld (lineClass l)) && !(s.flag (lineMask l))

/-- Whether a line is a trip-class fault (R372). -/
def State.lineTrip (s : State) (l : Nat) : Bool :=
  s.flag (lineStat l) && decide (3 ≤ s.fld (lineClass l))

def State.anyErr (s : State) : Bool := (List.range 64).any s.lineErr
def State.anyTrip (s : State) : Bool := (List.range 64).any s.lineTrip

/-- CCD_SUM follows the lines: ERR is ERR_N low (its fall is MSI-X event 10 and capture source 3), FIRST is the lowest
line that made TRIPCLASS rise (R374, Table 15.13). -/
def State.ccdSum (s : State) : State :=
  let e := s.anyErr
  let t := s.anyTrip
  let s := if e && !(s.flag F.CCD_SUM_ERR) then (s.vector 10).captureSrc 3 else s
  let s := if t && !(s.flag F.CCD_SUM_TRIPCLASS) then
      s.setFld F.CCD_SUM_FIRST (((List.range 64).find? s.lineTrip).getD 0) else s
  (s.setFlag F.CCD_SUM_ERR e).setFlag F.CCD_SUM_TRIPCLASS t

/-- One entry written into the fault log (R375). -/
def State.logEntry (s : State) (line detail : Nat) : State :=
  let i := s.fld F.CCD_LOGHEAD_NEXT
  let full := decide (4096 ≤ s.fld F.CCD_LOGTOT_VAL)
  let e : LogEntry := { time := s.ns, line := line, detail := detail % 2 ^ 22, sweep := s.sweep }
  let s := { s with ccd := { s.ccd with log := (s.ccd.log.filter (fun x => x.1 != i)) } }
  let s := { s with ccd := { s.ccd with log := insBy (fun a b => decide (a.1 ≤ b.1)) (i, e) s.ccd.log } }
  let s := s.setFld F.CCD_LOGHEAD_NEXT ((i + 1) % 4096)
  let s := if full then s.bump F.CCD_LOGOVW_VAL 1 else s
  s.bump F.CCD_LOGTOT_VAL 1

/-- The reaction of a line's class, less the Mantis demand of TRIP_MTS: IPEND on the cores of
CCD_CTL, BLOCK and TRIP for Cricket's next admission point; a module that is not ACTIVE takes every
class above ALARM as ALARM (R372, R373). -/
def State.react (s : State) (line : Nat) : State :=
  let c := s.fld (lineClass line)
  let s := if decide (1 ≤ c) then
      forN 8 (fun n s => if s.flagBit F.CCD_CTL_CORES n then s.ipend n 2 else s) s else s
  let s := if decide (2 ≤ c) && s.active then { s with ccd := { s.ccd with block := true } } else s
  let s := if decide (3 ≤ c) && s.active then { s with ccd := { s.ccd with trip := true } } else s
  if s.flag (lineMoth line) then s.mothFire 1 else s

/-- A report taken by Cicada, less the Mantis demand of class TRIP_MTS (R371 to R375). A report also
ends the fault-free time of R347, and CELL_FAULT, LATE and LANE_LOL are trigger sources of Moth
(Table 13.3). -/
def State.reportBase (s : State) (line detail : Nat) : State :=
  let seen := s.flag (lineStat line)
  let s := if seen then s.bump F.CCD_SUPP_VAL 1 else s.logEntry line detail
  let s := s.setFlag (lineStat line) true
  let s := { s with twn := { s.twn with freeFrom := none } }
  let s := if line = 0x0A then s.mothFire 5 else if line = 0x05 then s.mothFire 6
    else if line = 0x14 then s.mothFire 7 else s
  (s.react line).ccdSum

/-! ### Mantis demands (R357, R358) -/

/-- A byte of the safety parameter block (Table 15.4). -/
def State.param (s : State) (i : Nat) : Nat :=
  bitsOf (s.reg (R.MTS_PARAM + 4 * (i / 4))) (8 * (i % 4)) 8

/-- GLOBAL.PWM_HIZ and GLOBAL.SM_EN. -/
def State.pwmHiz (s : State) : Bool := (s.param 3).testBit 0
def State.smEn (s : State) : Bool := (s.param 3).testBit 1

/-- Every PWM channel at high impedance, for one of the causes of R417. -/
def State.hizAll (s : State) (f : PwmSt → PwmSt) : State :=
  forN 12 (fun n s => s.setPwmCh n (f (s.pwmCh n))) s

/-- A demand that arises while a RESET is pending keeps it from being accepted (R359). -/
def State.resetSpoil (s : State) : State :=
  { s with mts := { s.mts with resetSpoiled := s.mts.resetSpoiled || s.mts.reset } }

/-- The first demand to be latched is the cause shown, and the sources latched take a new one. -/
def State.demandLatch (s : State) (src : Nat) : State :=
  let s := if s.mts.demands.isEmpty then s.setFld F.MTS_CAUSE_SRC src else s
  { s with mts := { s.mts with
      demands := if s.mts.demands.contains src then s.mts.demands else s.mts.demands ++ [src] } }.resetSpoil

/-- Block-all, with the PWM outputs when PWM_HIZ says so; source 0x14 is not a Mantis trip (R358). -/
def State.demandBlock (s : State) (src : Nat) : State :=
  let s := s.setFlag F.MTS_STAT_BLOCK_ALL true
  let s := if src != 0x14 then { s with crk := { s.crk with mtsTrip := true } } else s
  if s.pwmHiz then s.hizAll (fun p => { p with hizMts := true }) else s

/-- The trip outputs a demand releases. -/
def State.demandTrip (s : State) (mask : Nat) : State :=
  s.setFld F.MTS_STAT_TRIP (s.fld F.MTS_STAT_TRIP ||| mask)

/-- The latching and the actions of a demand: block-all (bit 0 of the action) and the trip outputs
(bits [7:4]), less the report. Its decision is the Mantis trip of Tables 9.2 and 13.3, but for source
0x14 (R358). -/
def State.demandBase (s : State) (src act : Nat) : State :=
  let s := s.demandLatch src
  let s := if act.testBit 0 then s.demandBlock src else s
  let s := s.demandTrip (act / 16 % 16)
  if src != 0x14 then (s.mothFire 2).captureSrc 4 else s

/-- A Mantis demand with its report on MTS_TRIP, less what class TRIP_MTS of that line adds. -/
def State.demandTold (s : State) (src act : Nat) : State :=
  let s := s.demandBase src act
  if src != 0x14 then s.reportBase 0x26 src else s

/-- A report on an error line (R371 to R375). Class TRIP_MTS adds demand source 0x10 on an ACTIVE
module, once: a source that is latched already makes no new demand. -/
def State.report (s : State) (line detail : Nat) : State :=
  let s := s.reportBase line detail
  if s.fld (lineClass line) == 4 && s.active then
    (if s.mts.demands.contains 0x10 then s.resetSpoil else s.demandTold 0x10 (s.param 152))
  else s

/-- A Mantis demand decided (R358): latched, acted on, and reported unless its source is 0x14. A
source that is latched already is not decided anew; it still spoils a pending RESET. -/
def State.mtsDemand (s : State) (src act : Nat) : State :=
  if s.mts.demands.contains src then s.resetSpoil
  else if src == 0x14 then s.demandBase src act
  else (s.demandBase src act).report 0x26 src

/-- Block-all and every trip output: the fixed action of sources 0x12 to 0x14 (Table 15.1). -/
def actAll : Nat := 0xF1

/-- A rejected write (line REJ_WRITE): DETAIL is the BAR0 offset's bits [23:2] (Table 15.6). -/
def State.rejWrite (s : State) (off : Nat) : State := s.report 0x00 (off / 4)
/-- A locked-field write (line LOCKED_WRITE). -/
def State.lockedWrite (s : State) (off : Nat) : State := s.report 0x01 (off / 4)

/-- An uncorrectable read at a memory address: recorded and reported (R25). -/
def State.memUe (s : State) (a : Nat) : State :=
  let ret := decide (0x08000000 ≤ a)
  let line := if ret then (a - 0x08000000) / 64 else a / 64
  let s := s.setFld F.GCR_ECC_UE_LINE line
  let s := (s.setFlag F.GCR_ECC_UE_RET ret).setFlag F.GCR_ECC_UE_VALID true
  s.report 0x03 (line + (if ret then 2 ^ 21 else 0))

/-- The 64-byte lines of the poisoned words that a read of `n` bytes from `a` on meets, rising. -/
def State.ueLines (s : State) (a n : Nat) : List Nat :=
  ((s.ecc.ue.filter (fun w => decide (w * 8 < a + n) && decide (a < w * 8 + 8))).map (fun w => w / 8)).eraseDups

/-- The checks of a read: corrections made, and every line with a poisoned word recorded and reported
(R25). The caller then asks `poisoned`. -/
def State.checkRead (s : State) (a n : Nat) : State :=
  forL (s.ueLines a n) (fun l s => s.memUe (64 * l)) (s.correct a n)

/-- How many of `n` bytes from `a` on come before the first poisoned word. -/
def State.cleanLen (s : State) (a n : Nat) : Nat :=
  (s.ecc.ue.filter (fun w => decide (w * 8 < a + n) && decide (a < w * 8 + 8))).foldl
    (fun m w => min m (w * 8 - a)) n

/-- The scrub gives way to a data-plane access in the bank of its next line (R16, R26). -/
def State.scrubDefers (s : State) (bank : Nat) : State :=
  if s.flag F.GCR_SCRUB_EN && s.ecc.scrubAt / 0x40000 == bank then
    { s with ecc := { s.ecc with deferred := s.ecc.deferred + 1 } }
  else s

/-- The checks of a read that ends at the first poisoned word (R25). -/
def State.checkUpTo (s : State) (a n : Nat) : State := s.checkRead a (min n (s.cleanLen a n + 1))

end Sys2Proof.Machine
end

