-- ==== Sys2Proof/Machine/Regs.lean ====
section
/-!
DEFINITION. A register write by the access codes of its fields (R13), with the locked-field write of
an RWL field after the commissioning lock.
-/

namespace Sys2Proof.Machine

/-- The value a register takes from a write: RW fields (and RWL fields before the lock) are set, W1C
bits written 1 are cleared, W1S bits written 1 are set until the action ends, RO and WO bits keep
what they read as (Table 0.6). -/
def writeValue (d : RegDesc) (lock : Bool) (v data : Word) : Word :=
  let w := if lock then d.rw else d.rw ||| d.rwl
  (((v &&& ~~~w) ||| (data &&& w)) &&& ~~~(data &&& d.w1c)) ||| (data &&& d.w1s)

/-- A locked-field write: the lock is set and the data differs in an RWL field (R13). -/
def lockedHit (d : RegDesc) (lock : Bool) (v data : Word) : Bool :=
  lock && ((v ^^^ data) &&& d.rwl != 0)

/-- The commissioning lock. -/
def State.locked (s : State) : Bool := s.flag F.MTS_STAT_LOCK

/-- A register write by its access codes; a locked-field write is reported. An offset that holds no
register ignores it (R9). -/
def State.baseWrite (s : State) (off : Nat) (data : Word) : State :=
  match regDesc off with
  | none => s
  | some d =>
    let t := s.setReg off (writeValue d s.locked (s.reg off) data)
    if lockedHit d s.locked (s.reg off) data then t.lockedWrite off else t

/-- Whether a write of a word sets a one-bit field of its register. -/
def writes1 (data : Word) (x : Fld) : Bool := data.getLsbD x.lo

end Sys2Proof.Machine
end

