-- ==== Sys2Proof/Machine/Mantis.lean ====
section
/-!
DEFINITION. Mantis (R350 to R370): the safety inputs and their test pulses, demands and RESET, the
parameter block and its confirmation, the supervision of the safety core, and safety messages.
Times of this unit are in ps of Firefly time, to which its oscillator is compared (R351).
-/

namespace Sys2Proof.Machine

/-! ### The parameter block (Table 15.4) -/

def State.param16 (s : State) (i : Nat) : Nat := s.param i + 256 * s.param (i + 1)
def State.param32 (s : State) (i : Nat) : Nat := s.param16 i + 65536 * s.param16 (i + 2)
def State.fType (s : State) (f : Nat) : Nat := s.param (16 + 16 * f)
def State.fAct (s : State) (f : Nat) : Nat := s.param (17 + 16 * f)
def State.fTest (s : State) (f : Nat) : Bool := (s.param (18 + 16 * f)).testBit 0 && s.fType f != 0
def State.fDiscMs (s : State) (f : Nat) : Nat := s.param16 (20 + 16 * f)
def State.fFilt (s : State) (f : Nat) : Nat := s.param32 (24 + 16 * f)
def State.tpPerMs (s : State) : Nat := s.param16 4
def State.tpWUs (s : State) : Nat := s.param16 6
def State.smWdMs (s : State) : Nat := s.param 10
def State.smWin (s : State) : Nat := s.param 11
def State.smbUse (s : State) : Nat := s.param 12

/-- An ACT byte uses bits 0 and [7:4] only (R357). -/
def actOk (a : Nat) : Bool := a / 2 % 8 == 0

def inRange (lo hi x : Nat) : Bool := decide (lo ≤ x) && decide (x ≤ hi)

/-- The range checks of one function's fields (R367). -/
def State.fOk (s : State) (f : Nat) : Bool :=
  let b := 16 + 16 * f
  let zero := [3, 6, 7, 12, 13, 14, 15].all (fun k => s.param (b + k) == 0)
  let ok := actOk (s.fAct f) && decide (s.param (b + 2) ≤ 1) && inRange 1 1000 (s.fDiscMs f) &&
    decide (s.fFilt f ≤ 250000) && (s.fType f != 3 || s.fAct f == 0)
  zero && decide (s.fType f ≤ 3) && (s.fType f == 0 || ok)

/-- Whether the parameter block is valid (R367). -/
def State.paramOk (s : State) : Bool :=
  let anyTest := (List.range 8).any s.fTest
  inRange 1 3 (s.param 2) && decide (s.param 3 ≤ 3) &&
    (!anyTest || (inRange 10 1000 s.tpPerMs && inRange 100 1000 s.tpWUs)) &&
    (!s.smEn || (inRange 3 100 s.smWdMs && inRange 1 16 s.smWin)) &&
    [13, 14, 15].all (fun k => s.param k == 0) && (List.range 8).all s.fOk &&
    (List.range 10).all (fun k => actOk (s.param (144 + k))) &&
    (List.range 6).all (fun k => s.param (154 + k) == 0) &&
    (List.range 92).all (fun k => s.param (164 + k) == 0)

/-- The check value of the block (R368). -/
def State.mtsChk (s : State) : Word :=
  crc32 ((List.range 256).map (fun i => BitVec.ofNat 8 (s.param i)))

/-- The module is permissive (R361). -/
def State.permit (s : State) : Bool :=
  s.mts.demands.isEmpty && (s.fld F.MTS_STAT_TRIP == 0) && s.flag F.MTS_STAT_CONFIRMED &&
    s.flag F.MTS_STAT_BS_OK && !(s.flag F.MTS_STAT_FTM)

/-- MTS_STAT as it reads (Table 15.11): PERMIT, SM_OK and PARAM_ERR follow the state. -/
def State.mtsStat (s : State) : Word :=
  let v := s.reg R.MTS_STAT
  let v := putBits v F.MTS_STAT_PERMIT.lo 1 (if s.permit then 1 else 0)
  let v := putBits v F.MTS_STAT_SM_OK.lo 1 (if !s.smEn || s.flag F.MTS_SMSTAT_SYNC then 1 else 0)
  putBits v F.MTS_STAT_PARAM_ERR.lo 1 (if s.paramOk then 0 else 1)

/-! ### Safety inputs (R353 to R356) -/

/-- The filter time of an input, ps: FILT of its function. -/
def State.filtPs (s : State) (i : Nat) : Nat := s.fFilt (i / 2) * 40 * psNs

/-- The filtered level of an input at an instant since its last change: its evaluated level once that has
held longer than FILT × 40 ns. -/
def State.filteredAt (s : State) (i t : Nat) : Bool :=
  if decide (tget (fun _ => 0) s.mts.levelAt i + s.filtPs i < t) then s.mts.evald.getLsbD i
  else s.mts.filt.getLsbD i
def State.filtered (s : State) (i : Nat) : Bool := s.filteredAt i s.now

def setBit16 (x : BitVec 16) (i : Nat) (b : Bool) : BitVec 16 :=
  if b then x ||| BitVec.ofNat 16 (2 ^ i) else x &&& ~~~(BitVec.ofNat 16 (2 ^ i))

/-- The evaluated level of an input at an instant; a rise is noted for a reset function (R356). -/
def setLevel (i : Nat) (high : Bool) (at_ : Nat) (s : State) : State :=
  if s.mts.evald.getLsbD i == high then s
  else
    let f := i / 2
    let fs := s.func f
    let rise := if high then some at_ else none
    let fs' := if i % 2 == 0 then { fs with riseA := rise } else { fs with riseB := rise }
    let s := { s with mts := { s.mts with
        filt := setBit16 s.mts.filt i (s.filteredAt i at_)
        evald := setBit16 s.mts.evald i high
        levelAt := tset (fun _ => 0) i at_ s.mts.levelAt } }
    s.setFunc f fs'

/-- Whether an input is held: its function is tested and its own pulse has begun and did not end
100 µs ago (R355). -/
def State.heldInput (s : State) (i : Nat) : Bool :=
  s.fTest (i / 2) && (if i % 2 == 0 then s.mts.heldA else s.mts.heldB)

/-- The end of the hold of one channel's inputs: they are evaluated again. -/
def thawChannel (b : Bool) (at_ : Nat) (s : State) : State :=
  forN 8 (fun f s =>
    let i := 2 * f + (if b then 1 else 0)
    setLevel i (s.mts.pins.getLsbD i) at_ s) s

/-- The holds of R355 that have ended by the present instant. -/
def mtsSettle (s : State) : State :=
  let endA := s.mts.tpaEnd + 100 * psUs
  let endB := s.mts.tpbEnd + 100 * psUs
  let s := if s.mts.heldA && !s.mts.tpaLow && decide (endA ≤ s.now) then
      thawChannel false endA { s with mts := { s.mts with heldA := false } } else s
  if s.mts.heldB && !s.mts.tpbLow && decide (endB ≤ s.now) then
    thawChannel true endB { s with mts := { s.mts with heldB := false } } else s

/-- MTS_IN as it reads: a hold that has ended shows no longer (R355). -/
def State.mtsIn (s : State) : Word :=
  let s := mtsSettle s
  (List.range 16).foldl (fun w i => putBits w i 1 (if s.filtered i then 1 else 0)) 0

/-- Whether a channel of a function shows demand (R353). -/
def State.showsDemand (s : State) (f : Nat) (b : Bool) : Bool :=
  let high := s.mts.evald.getLsbD (2 * f + (if b then 1 else 0))
  if s.fType f == 1 then !high
  else if s.fType f == 2 then (if b then high else !high)
  else false

/-- Since when a channel has shown demand, or shown none: the last change of its level, or of its function's
TYPE to one that reads the level the other way. -/
def State.levelSince (s : State) (f : Nat) (b : Bool) : Nat :=
  let i := 2 * f + (if b then 1 else 0)
  max (tget (fun _ => 0) s.mts.levelAt i) (tget (fun _ => 0) s.mts.shownAt i)

/-- Since when the function's channels have shown demand: the earlier of those that do. -/
def State.demandSince (s : State) (f : Nat) : Option Nat :=
  match s.showsDemand f false, s.showsDemand f true with
  | true, true => some (min (s.levelSince f false) (s.levelSince f true))
  | true, false => some (s.levelSince f false)
  | false, true => some (s.levelSince f true)
  | false, false => none

/-- A change at an input's contact. -/
def safeInChange (i : Nat) (high : Bool) (s : State) : State :=
  let s := mtsSettle s
  let s := { s with mts := { s.mts with pins := setBit16 s.mts.pins i high } }
  if s.heldInput i then s else setLevel i high s.now s

/-- Function f demands: latched in MTS_FUNC and acted on by its ACT (R353, R357, R358). -/
def funcDemand (f : Nat) (s : State) : State :=
  (s.setFlagBit F.MTS_FUNC_DEMAND f true).mtsDemand f (s.fAct f)

/-- The instant at which the next hold ends, of those whose pulse is over (R355). -/
def State.holdEnd (s : State) : Option Nat :=
  let a := if s.mts.heldA && !s.mts.tpaLow then [s.mts.tpaEnd + 100 * psUs] else []
  let b := if s.mts.heldB && !s.mts.tpbLow then [s.mts.tpbEnd + 100 * psUs] else []
  (a ++ b).min?

/-- The state that reaches the instant at which something falls due by the levels of the inputs, none where
it does not. Holds that end before are applied at their ends: the levels are those from there on (R355). -/
def mtsUntil (due : State → Option Nat) : Nat → State → Option State
  | 0, _ => none
  | f + 1, s =>
    let s := mtsSettle s
    match s.holdEnd, due s with
    | none, none => none
    | none, some t => some (s.reach t)
    | some e, none => mtsUntil due f (s.reach e)
    | some e, some t => if t < e then some (s.reach t) else mtsUntil due f (s.reach e)

/-- Both holds may end before. -/
def State.mtsAt (s : State) (due : State → Option Nat) : Option State := mtsUntil due 3 s

/-- When a function's demand is decided: once a channel has shown it longer than FILT × 40 ns (R353). -/
def demandDue (f : Nat) (s : State) : Option Nat := (s.demandSince f).map (fun t => t + s.fFilt f * 40 * psNs)

/-- The decision of a function's demand. -/
def demandEvent (f : Nat) (s : State) : State :=
  match s.mtsAt (demandDue f) with
  | none => mtsSettle s
  | some s => funcDemand f s

/-- When a function's two channels have disagreed about demand longer than DISC_MS (R354). -/
def discDue (f : Nat) (s : State) : Option Nat :=
  if (s.fType f == 1 || s.fType f == 2) && (s.showsDemand f false != s.showsDemand f true) &&
      !(s.flagBit F.MTS_FUNC_DISC f) then
    some (max (s.levelSince f false) (s.levelSince f true) + s.fDiscMs f * psMs)
  else none

/-- The discrepancy is found (R354). -/
def discrepancyEvent (f : Nat) (s : State) : State :=
  match s.mtsAt (discDue f) with
  | none => mtsSettle s
  | some s => (funcDemand f (s.setFlagBit F.MTS_FUNC_DISC f true)).report 0x27 f

/-- The inputs a pulse's end finds at fault, with the instant before it: a tested channel high at the
end of its own pulse is stuck, and one high at the start and low at the end of the other's is
cross-shorted (R355). -/
def State.pulseFound (s : State) (b : Bool) : List Nat :=
  (List.range 16).filter (fun i =>
    s.fTest (i / 2) && (if (i % 2 == 1) == b then s.mts.pins.getLsbD i
      else s.mts.atStart.getLsbD i && !(s.mts.pins.getLsbD i)))

/-- Test pulses run only with TP_PER_MS and TP_W_US in their ranges. -/
def State.pulsesRun (s : State) : Bool := inRange 10 1000 s.tpPerMs && inRange 100 1000 s.tpWUs

/-- The start of a pulse of TPA (`b` false) or TPB. TPA's follow each other by TP_PER_MS, TPB's
follow TPA's by half of it, one in each period; the instant of the first is the outside world's. The two never overlap. -/
def testPulseStart (b : Bool) (s : State) : State :=
  let s := mtsSettle s
  if !s.pulsesRun || s.mts.tpaLow || s.mts.tpbLow then s
  else if b then
    match s.mts.tpaAt with
    | none => s
    | some t =>
      let due := t + s.tpPerMs * psMs / 2
      if due ≤ s.mts.tpbAt.getD 0 then s else
      let s := mtsSettle (s.reach due)
      { s with mts := { s.mts with
          tpbLow := true, tpbAt := some s.now, heldB := true, atStart := s.mts.pins
          resetB := if s.mts.reset && s.mts.resetB == 0 then 1 else s.mts.resetB } }
  else
    let s := match s.mts.tpaAt with
      | none => s
      | some t => mtsSettle (s.reach (t + s.tpPerMs * psMs))
    { s with mts := { s.mts with
        tpaLow := true, tpaAt := some s.now, heldA := true, atStart := s.mts.pins
        resetA := if s.mts.reset && s.mts.resetA == 0 then 1 else s.mts.resetA } }

/-- The findings at the end of a pulse: TPFAIL and a demand for each, then their reports (R355, R375). -/
def pulseFindings (b : Bool) (s : State) : State :=
  let l := s.pulseFound b
  let s := forL l (fun i s => funcDemand (i / 2) (s.setFlagBit F.MTS_FUNC_TPFAIL (i / 2) true)) s
  forL l (fun i s => s.report 0x28 i) s

/-- The end of a pulse, TP_W_US after its start. -/
def testPulseEnd (b : Bool) (s : State) : State :=
  if b then
    if s.mts.tpbLow then
      let s := s.reach (s.mts.tpbAt.getD 0 + s.tpWUs * psUs)
      let s := pulseFindings true s
      { s with mts := { s.mts with
          tpbLow := false, tpbEnd := s.now
          resetEnd := if s.mts.resetB == 1 then s.now else s.mts.resetEnd
          resetB := if s.mts.resetB == 1 then 2 else s.mts.resetB } }
    else s
  else
    if s.mts.tpaLow then
      let s := s.reach (s.mts.tpaAt.getD 0 + s.tpWUs * psUs)
      let s := pulseFindings false s
      { s with mts := { s.mts with
          tpaLow := false, tpaEnd := s.now
          resetEnd := if s.mts.resetA == 1 then s.now else s.mts.resetEnd
          resetA := if s.mts.resetA == 1 then 2 else s.mts.resetA } }
    else s

/-! ### RESET (R359) -/

/-- The conditions under which a RESET is accepted at its decision. -/
def State.resetOk (s : State) : Bool :=
  s.flag F.MTS_STAT_CONFIRMED && s.flag F.MTS_STAT_BS_OK &&
    (List.range 8).all (fun f => !(s.showsDemand f false) && !(s.showsDemand f true)) &&
    (List.range 8).all (fun f =>
      !(s.flagBit F.MTS_FUNC_DISC f || s.flagBit F.MTS_FUNC_TPFAIL f) ||
        (if s.fType f == 1 || s.fType f == 2 then s.showsDemand f false == s.showsDemand f true
         else s.mts.evald.getLsbD (2 * f) == s.mts.evald.getLsbD (2 * f + 1))) &&
    (!s.smEn || (s.fld F.MTS_SMSTAT_SMB &&& s.smbUse) == s.smbUse) &&
    !s.mts.resetSpoiled

/-- The decision of a RESET: accepted, it clears the latched demands and findings, releases
block-all and energises the trip outputs, which factory test mode keeps open (R358, R361); else it is discarded and told as MTS_TRIP 0x3F. The PWM
outputs leave the high impedance of a Mantis demand with it (R417). -/
def resetDecide (s : State) : State :=
  let ok := s.resetOk
  let s := (s.setFlag F.MTS_CMD_RESET false)
  let s := { s with mts := { s.mts with
      reset := false, resetA := 0, resetB := 0, resetSpoiled := false } }
  if ok then
    let s := { s with mts := { s.mts with demands := [] } }
    let s := s.setReg R.MTS_FUNC 0
    let s := s.setFlag F.MTS_STAT_BLOCK_ALL false
    if s.flag F.MTS_STAT_FTM then s else s.setFld F.MTS_STAT_TRIP 0
  else s.report 0x26 0x3F

/-- A request for RESET: decided at once, or pending until the test pulses it awaits have ended. -/
def resetRequest (s : State) : State :=
  if s.mts.reset then s
  else if (List.range 8).any (fun f =>
      s.fTest f && (s.flagBit F.MTS_FUNC_DISC f || s.flagBit F.MTS_FUNC_TPFAIL f)) then
    { s with mts := { s.mts with
        reset := true, resetA := 0, resetB := 0, resetSpoiled := false } }
  else resetDecide s

/-- MTS_CMD.RESET written 1. -/
def mtsReset (s : State) : State :=
  if (s.param 2).testBit 0 then
    let s := mtsSettle s
    if s.mts.reset then s
    else
      let s := resetRequest s
      s.setFlag F.MTS_CMD_RESET s.mts.reset
  else s.rejWrite R.MTS_CMD

/-- When a reset function's channels, which rose within DISC_MS of each other, have stayed high for 50 ms
(R356). -/
def resetDue (f : Nat) (s : State) : Option Nat :=
  match s.fType f == 3, (s.func f).riseA, (s.func f).riseB with
  | true, some a, some b =>
    if decide (max a b - min a b ≤ s.fDiscMs f * psMs) then some (max a b + 50 * psMs) else none
  | _, _, _ => none

/-- A reset function requests RESET (R356, R359). -/
def resetFunction (f : Nat) (s : State) : State :=
  match s.mtsAt (resetDue f) with
  | none => mtsSettle s
  | some s =>
    let s := s.setFunc f { riseA := none, riseB := none }
    if (s.param 2).testBit 1 then resetRequest s else s

/-- The decision of a pending RESET, 100 µs after the later end of its pulses. -/
def resetDecision (s : State) : State :=
  if s.mts.reset && s.mts.resetA == 2 && s.mts.resetB == 2 then
    resetDecide (mtsSettle (s.reach (s.mts.resetEnd + 100 * psUs)))
  else s

/-! ### Commands and the parameter block (R357, R367 to R370) -/

/-- MTS_CMD.TRIP written 1. -/
def mtsTrip (s : State) : State := s.mtsDemand 0x11 (s.param 153)

/-- MTS_CMD.UNLOCK written 1 with a KEY (R369). Without power nothing reaches Mantis's store. -/
def mtsUnlock (key : Nat) (s : State) : State :=
  if s.mod.power = .off then s
  else if s.quiet && key == 0x5AFE then
    let s := (s.setFlag F.MTS_STAT_LOCK false).setFlag F.MTS_STAT_CONFIRMED false
    let s := { s with mts := { s.mts with nvConf := none } }
    s.mtsDemand 0x14 actAll
  else s.rejWrite R.MTS_CMD

/-- The words of the parameter window as a table. -/
def State.paramWords (s : State) : Tab Word :=
  s.regs.filter (fun x => decide (R.MTS_PARAM ≤ x.1) && decide (x.1 < R.MTS_PARAM + 256))

/-- A write of MTS_CONFIRM (R368). Without power nothing reaches Mantis's store. -/
def mtsConfirm (v : Word) (s : State) : State :=
  if s.mod.power = .off then s
  else if s.quiet && !s.locked && s.paramOk then
    if v = s.mtsChk then
      let s := (s.setFlag F.MTS_STAT_CONFIRMED true).setFlag F.MTS_STAT_LOCK true
      { s with mts := { s.mts with nvBlock := s.paramWords, nvConf := some v } }
    else s.setFlag F.MTS_STAT_CONF_ERR true
  else s.rejWrite R.MTS_CONFIRM

/-- Demand sources 0x08 to 0x0F: a used safety-message bit at 0, while SM_EN is set (R365). -/
def smDemands (s : State) : State :=
  if s.smEn then
    forN 8 (fun b s =>
      if s.smbUse.testBit b && !((s.fld F.MTS_SMSTAT_SMB).testBit b) then
        s.mtsDemand (8 + b) (s.param (144 + b))
      else s) s
  else s

/-- What follows from the parameter block as it stands: source 0x13 while it is invalid (R367), the PWM
outputs while block-all is held with PWM_HIZ set (R417), and the safety-message bits. SM_EN at 0 takes the
SMB in force as 0 (R365). -/
def paramEffects (s : State) : State :=
  let s := if s.flag F.MTS_STAT_BLOCK_ALL && s.pwmHiz then s.hizAll (fun p => { p with hizMts := true }) else s
  let s := if s.paramOk then s else s.mtsDemand 0x13 actAll
  let s := if s.smEn then s else s.setFld F.MTS_SMSTAT_SMB 0
  smDemands s

/-- The inputs that show demand after a write of the block where they showed none before, or none where they
did, do so from here on (R353, R354). -/
def shownFrom (old s : State) : State :=
  forN 16 (fun i s =>
    if s.showsDemand (i / 2) (i % 2 == 1) == old.showsDemand (i / 2) (i % 2 == 1) then s
    else { s with mts := { s.mts with shownAt := tset (fun _ => 0) i s.now s.mts.shownAt } }) s

/-- A write of the parameter window (R367). -/
def paramWrite (off : Nat) (v : Word) (s : State) : State :=
  if s.locked then s.lockedWrite off
  else if s.quiet then
    let s := mtsSettle s
    paramEffects (shownFrom s (s.setReg off v))
  else s.rejWrite off

/-- An internal fault: source 0x13 (R351, R360). -/
def internalFault (s : State) : State := s.mtsDemand 0x13 actAll

/-! ### The safety core (R362, R363) -/

/-- A failure of BS: BS_OK falls, source 0x12 demands and Mantis reports MTS_BS (R363). -/
def bsFail (s : State) : State :=
  let s := s.setFlag F.MTS_STAT_BS_OK false
  let s := s.mtsDemand 0x12 actAll
  s.report 0x2A (s.fld F.MTS_BS_WD_FAIL + 2 * s.fld F.MTS_BS_DIVERGE + 4 * s.fld F.MTS_BS_IMG_ERR)

/-- A word of BS's local memory, by its offset there: as written, else of the stored image once module
management has loaded it (R362). -/
def State.bsWord (s : State) (a : Nat) : Word :=
  match tget (fun _ => none) s.mts.bsMem (a / 4) with
  | some w => w
  | none => if s.mts.bsLoaded then Config.bsImage (a / 4) else 0

def State.setBsWord (s : State) (a : Nat) (v : Word) : State :=
  { s with mts := { s.mts with bsMem := tset (fun _ => none) (a / 4) (some v) s.mts.bsMem } }

/-- Module management loads the stored image into BS's memory at start-up; Mantis, which a REBOOT
leaves alone, keeps what it holds (R362, R399). -/
def bsImageLoad (s : State) : State :=
  if s.mts.bsLoaded then s else { s with mts := { s.mts with bsLoaded := true, bsMem := [] } }

/-- The bytes of BS's local memory. -/
def State.bsBytes (s : State) : List Byte :=
  (List.range 8192).flatMap (fun i =>
    let w := s.bsWord (4 * i)
    [w.extractLsb' 0 8, w.extractLsb' 8 8, w.extractLsb' 16 8, w.extractLsb' 24 8])

/-- MTS_BS.RUN written 1: from 0 to 1 the failures clear, the image is checked and BS starts at
address 0 (R362, R363). -/
def bsRun (s : State) : State :=
  if !s.quiet then s.rejWrite R.MTS_BS
  else if s.flag F.MTS_BS_RUN then s
  else
    let ok := crc32 s.bsBytes = BitVec.ofNat 32 (s.param32 160)
    let s := s.setReg R.MTS_BS 1
    let s := { s with mts := { s.mts with
        bsSup := true, bsWinAt := s.now, bsWrites := 0, bsBadCompl := false, bsDiverge := 0
        bsGood := 0, bsDem := 0, smFrom := s.now } }
    if ok then
      s.setCore 8 { run := true }
    else
      bsFail ({ s with mts := { s.mts with bsSup := false } }.setFlag F.MTS_BS_IMG_ERR true)

/-- MTS_BS.RUN written 0: BS stops and is no longer running and supervised. The module is no longer
permissive, and its trip outputs open (R358, R361). -/
def bsStop (s : State) : State :=
  if !s.quiet then s.rejWrite R.MTS_BS
  else
    let s := (s.setFlag F.MTS_BS_RUN false).setFlag F.MTS_STAT_BS_OK false
    let s := s.demandTrip 0xF
    s.setCore 8 { s.core 8 with run := false }

/-- A write of MTS_BSDEM by BS (R363). -/
def bsdemWrite (v : Word) (s : State) : State :=
  let c := s.core 8
  if c.run && !c.nested then
    let bad := (bitsOf v 0 8 + bitsOf v 8 8 != 255) || (bitsOf v 16 8 + bitsOf v 24 8 != 255)
    { s with mts := { s.mts with
        bsWrites := s.mts.bsWrites + 1, bsBadCompl := s.mts.bsBadCompl || bad, bsDem := v } }
  else s

/-- The end of a 1 ms window: its checks, and BS_OK after two windows passed since RUN (R363). A window without a
write has no demand vector to compare, and two that differ are not consecutive across it (DEDUCED: assumption
302). -/
def bsWindow (s : State) : State :=
  if s.mts.bsSup then
    let s := s.reach (s.mts.bsWinAt + psMs)
    let wd := s.mts.bsWrites != 1 || s.mts.bsBadCompl
    let differs := s.mts.bsWrites != 0 && bitsOf s.mts.bsDem 0 8 != s.fld F.MTS_FUNC_DEMAND
    let n := if differs then s.mts.bsDiverge + 1 else 0
    let new := (wd && !(s.flag F.MTS_BS_WD_FAIL)) || (decide (2 ≤ n) && !(s.flag F.MTS_BS_DIVERGE))
    let s := { s with mts := { s.mts with
        bsWinAt := s.now, bsWrites := 0, bsBadCompl := false, bsDiverge := n
        bsGood := if wd then 0 else min 2 (s.mts.bsGood + 1)
        bsSup := s.flag F.MTS_BS_RUN } }
    let s := if wd then s.setFlag F.MTS_BS_WD_FAIL true else s
    let s := if decide (2 ≤ n) then s.setFlag F.MTS_BS_DIVERGE true else s
    let now := s.flag F.MTS_BS_WD_FAIL || s.flag F.MTS_BS_DIVERGE
    if new then bsFail s
    else if !now && decide (2 ≤ s.mts.bsGood) && s.flag F.MTS_BS_RUN then
      s.setFlag F.MTS_STAT_BS_OK true
    else s
  else s

/-- BS halted under R263: MTS_BS.HALTED and WD_FAIL. -/
def bsHalted (s : State) : State :=
  let failed := s.flag F.MTS_BS_WD_FAIL
  let s := (s.setFlag F.MTS_BS_HALTED true).setFlag F.MTS_BS_WD_FAIL true
  if failed then s else bsFail s

/-! ### Safety messages (R364 to R366) -/

/-- BS runs and SM_EN is set, the condition of every rule on safety messages. -/
def State.smRuns (s : State) : Bool :=
  s.smEn && s.flag F.MTS_BS_RUN && (s.core 8).run && !(s.core 8).nested

def byteAt (l : List Byte) (i : Nat) : Nat := (l.getD i 0).toNat
def wordAt (l : List Byte) (i : Nat) : Word := BitVec.ofNat 32 (leNat ((l.drop i).take 4))

/-- The conditions of R365 but for SEQ. -/
def smFormOk (s : State) (l : List Byte) : Bool :=
  (smCrc (l.take 12) == wordAt l 12) && (byteAt l 1 / 16 == 1) && (byteAt l 1 % 16 == 1) &&
    (byteAt l 2 + 256 * byteAt l 3 == s.param16 8) && (byteAt l 8 + byteAt l 9 == 255)

/-- A message taken: its SEQ is known by the port it came by (R365). -/
def State.smTake (s : State) (port : Bool) (l : List Byte) : State :=
  { s with mts := { s.mts with
      smSeen := tset (fun _ => none) (wordAt l 4).toNat (some (port, byteAt l 8)) s.mts.smSeen } }

/-- Whether a message is a copy of one that was taken from the other port. -/
def State.smCopy (s : State) (port : Bool) (l : List Byte) : Bool :=
  tget (fun _ => none) s.mts.smSeen (wordAt l 4).toNat == some (!port, byteAt l 8)

/-- A command message accepted: S, the SMB in force, and the timeout afresh. -/
def smAccept (port : Bool) (l : List Byte) (s : State) : State :=
  let s := s.smTake port l
  let s := { s with mts := { s.mts with smSeq := wordAt l 4, smPrev := none, smFrom := s.now } }
  smDemands (s.setFld F.MTS_SMSTAT_SMB (byteAt l 8))

/-- A command message on a port (R365). Out of step, two messages whose SEQ differ by 1 within
SM_WD_MS bring SYNC, and the second of them is accepted. -/
def safetyMsgRx (port : Bool) (l : List Byte) (s : State) : State :=
  if s.smRuns then
    if smFormOk s l then
      let q := wordAt l 4
      if s.flag F.MTS_SMSTAT_SYNC then
        let d := (q - s.mts.smSeq).toNat
        if inRange 1 s.smWin d then smAccept port l s
        else if s.smCopy port l then s
        else s.bump F.MTS_SMSTAT_ERR 1
      else
        let first := { (s.smTake port l) with mts := { (s.smTake port l).mts with smPrev := some (q, s.now) } }
        match s.mts.smPrev with
        | none => first
        | some (q0, t0) =>
          if q = q0 + 1 && decide (s.now ≤ t0 + s.smWdMs * psMs) then
            let s := { s with mts := { s.mts with smTold := false } }
            smAccept port l (s.setFlag F.MTS_SMSTAT_SYNC true)
          else if q = q0 && s.smCopy port l then s
          else first
    else s.bump F.MTS_SMSTAT_ERR 1
  else s

/-- SM_WD_MS passed without an accepted message (R366). -/
def smTimeout (s : State) : State :=
  if s.smRuns && !s.mts.smTold then
    let s := s.reach (s.mts.smFrom + s.smWdMs * psMs)
    let s := { s with mts := { s.mts with smTold := true, smPrev := none } }
    let s := (s.setFld F.MTS_SMSTAT_SMB 0).setFlag F.MTS_SMSTAT_SYNC false
    (smDemands (s.setFlag F.MTS_SMSTAT_TIMEOUT true)).report 0x29 0
  else s

/-- The status message of R366: its 16 bytes (Table 15.2). -/
def statusMsg (s : State) : List Byte :=
  let bits := (if s.permit then 1 else 0) + (if s.flag F.MTS_STAT_BLOCK_ALL then 2 else 0) +
    4 * s.fld F.MTS_STAT_TRIP + (if s.flag F.MTS_STAT_BS_OK then 64 else 0)
  let body := leBytes 2 0x1200 ++ leBytes 2 (s.param16 8) ++ leBytes 4 s.mts.smSeqTx.toNat ++
    [BitVec.ofNat 8 bits, BitVec.ofNat 8 (255 - bits), 0, 0]
  body ++ leBytes 4 (smCrc body).toNat

/-! ### The commands of this unit -/

/-- SAFE_IN_CHANGE -/
def execSafeInChange (i : Fin 16) (high : Bool) (s : State) : Host.Outcome State Fault Refusal :=
  .next (safeInChange i.val high s)
/-- DEMAND -/
def execDemand (f : Fin 8) (s : State) : Host.Outcome State Fault Refusal :=
  .next (demandEvent f.val s)
/-- DISCREPANCY -/
def execDiscrepancy (f : Fin 8) (s : State) : Host.Outcome State Fault Refusal :=
  .next (discrepancyEvent f.val s)
/-- TEST_PULSE_START -/
def execTestPulseStart (b : Bool) (s : State) : Host.Outcome State Fault Refusal :=
  .next (testPulseStart b s)
/-- TEST_PULSE_END -/
def execTestPulseEnd (b : Bool) (s : State) : Host.Outcome State Fault Refusal :=
  .next (testPulseEnd b s)
/-- RESET_FUNCTION -/
def execResetFunction (f : Fin 8) (s : State) : Host.Outcome State Fault Refusal :=
  .next (resetFunction f.val s)
/-- MTS_RESET -/
def execMtsReset (s : State) : Host.Outcome State Fault Refusal := .next (mtsReset s)
/-- RESET_DECISION -/
def execResetDecision (s : State) : Host.Outcome State Fault Refusal := .next (resetDecision s)
/-- TRIP -/
def execTrip (s : State) : Host.Outcome State Fault Refusal := .next (mtsTrip s)
/-- UNLOCK -/
def execUnlock (key : BitVec 16) (s : State) : Host.Outcome State Fault Refusal :=
  .next (mtsUnlock key.toNat s)
/-- READBACK_FAULT: a trip output channel's read-back has differed for more than 1 ms (R360). -/
def execReadbackFault (output : Fin 4) (s : State) : Host.Outcome State Fault Refusal :=
  match output with
  | _ => .next (internalFault s)
/-- MANTIS_INTERNAL_FAULT (R351) -/
def execMantisInternalFault (s : State) : Host.Outcome State Fault Refusal :=
  .next (internalFault s)
/-- BS_RUN -/
def execBsRun (s : State) : Host.Outcome State Fault Refusal := .next (bsRun s)
/-- BS_STOP -/
def execBsStop (s : State) : Host.Outcome State Fault Refusal := .next (bsStop s)
/-- BSDEM_WRITE -/
def execBsdemWrite (v : Word) (s : State) : Host.Outcome State Fault Refusal :=
  .next (bsdemWrite v s)
/-- BS_WINDOW -/
def execBsWindow (s : State) : Host.Outcome State Fault Refusal := .next (bsWindow s)
/-- SM_TIMEOUT -/
def execSmTimeout (s : State) : Host.Outcome State Fault Refusal := .next (smTimeout s)
/-- MTS_INJ: outside factory test mode it is a rejected write (R376); in that mode the spec does not
say what an injection does. -/
def execMtsInj (v : Word) (s : State) : Host.Outcome State Fault Refusal :=
  match v with
  | _ => if s.flag F.MTS_STAT_FTM then .refused .factoryInjection else .next (s.rejWrite R.MTS_INJ)
/-- FACTORY_TEST_MODE: entered only before READY (Table 15.8). The module is not permissive then, and its trip
outputs open (R358, R361). -/
def execFactoryTestMode (s : State) : Host.Outcome State Fault Refusal :=
  .next (if s.mod.power = .starting then (s.setFlag F.MTS_STAT_FTM true).demandTrip 0xF else s)

end Sys2Proof.Machine
end

