-- ==== Sys2Proof/Machine/Midge.lean ====
section
/-!
DEFINITION. Midge (R154 to R165): triggers and sequences, results, plausibility pairs, spare-slice
calibration; and the latches of Lacewing that results enter (R167).
-/

namespace Sys2Proof.Machine

/-- The offset of converter c's registers from converter 0's. -/
def convUp (c : Nat) (x : Fld) : Fld := x.up (0x20 * c)
def State.cfld (s : State) (c : Nat) (x : Fld) : Nat := s.fld (convUp c x)
def State.cflag (s : State) (c : Nat) (x : Fld) : Bool := s.flag (convUp c x)

/-- DELAY_NS of a converter, ps: below 64 acts as 64. -/
def State.delayPs (s : State) (c : Nat) : Nat := max 64 (s.cfld c F.MDG_DLY_DELAY_NS) * psNs

/-- A field of a running sequence's settings. -/
def cfgBits (cfg : Word) (x : Fld) : Nat := bitsOf cfg x.lo x.width

/-- A trigger accepted: the sequence takes the settings in force, and entry 0 starts DELAY_NS after
the event, not before `notBefore` (R156, R157, R158). -/
def convAccept (c event notBefore : Nat) (s : State) : State :=
  let v := s.conv c
  let s := s.setConv c { v with
    entry := 0, converting := false, startAt := max (event + s.delayPs c) notBefore
    cfg := s.reg (R.MDG_CFG + 0x20 * c), seq := s.reg (R.MDG_SEQ + 0x20 * c) }
  s.setFlag (convUp c F.MDG_CSTAT_BUSY) true

/-- A trigger that reaches a converter: accepted, made pending, or lost (R157). A disabled converter
ignores it. -/
def convTrigger (c : Nat) (s : State) : State :=
  if !(s.flagBit F.MDG_CTL_EN c) then s
  else if !(s.cflag c F.MDG_CSTAT_BUSY) then convAccept c s.now 0 s
  else if !(s.cflag c F.MDG_CSTAT_PEND) then
    let s := s.setConv c { s.conv c with pendAt := s.now }
    (s.setFlag (convUp c F.MDG_CSTAT_PEND) true).bump (convUp c F.MDG_CNT_QUEUED) 1
  else
    let was := s.cflag c F.MDG_CSTAT_LOST
    let s := (s.bump (convUp c F.MDG_CNT_TRIG_LOST) 1).setFlag (convUp c F.MDG_CSTAT_LOST) true
    if was then s else s.report 0x11 c

/-- A software trigger: its bit of MDG_SWTRIG reads 1 while it pends, and a 1 written meanwhile has no further
effect: it is no trigger that R157 would count as lost (R13, R156) (DEDUCED: assumption 299). -/
def swTrigger (c : Nat) (s : State) : State :=
  if s.flagBit F.MDG_SWTRIG_TRIG c then s
  else
    let t := convTrigger c s
    if !(s.cflag c F.MDG_CSTAT_PEND) && t.cflag c F.MDG_CSTAT_PEND then t.setFlagBit F.MDG_SWTRIG_TRIG c true else t

/-- A hardware event triggers every converter whose source it is (Table 6.8): 1 the sweep, 2 a PWM
period start, 3 a PWM compare, 4 a Firefly event; `sel` is the channel or event. -/
def hwTrigger (src sel : Nat) (s : State) : State :=
  forN 16 (fun c s =>
    if s.cfld c F.MDG_CFG_TRIG_SRC == src && (src == 1 || s.cfld c F.MDG_CFG_TRIG_SEL == sel) then
      convTrigger c s
    else s) s

/-- The start of a conversion at its instant; a swap that is due counts one deferral (R156, R164). While the
outputs are gated it waits for their release (DESIGN CHOICE: assumption 308). -/
def conversionStart (c : Nat) (s : State) : State :=
  let v := s.conv c
  if s.cflag c F.MDG_CSTAT_BUSY && !v.converting && !(s.flag F.FFY_STAT_GATED) then
    let s := s.reach v.startAt
    let s := s.setConv c { v with converting := true }
    if v.swapDue.isSome && v.swapping.isNone then s.bump (convUp c F.MDG_CSTAT_DEFER) 1 else s
  else s

/-- DATA as a result is written to MDG_DATAc (R159). -/
def dataField (cfg : Word) (code : Int) : Nat :=
  let v := if cfgBits cfg F.MDG_CFG_SIGNED == 1 then code else code + 2048
  if cfgBits cfg F.MDG_CFG_LEFT == 1 then (BitVec.ofInt 12 v).toNat * 16
  else (BitVec.ofInt 16 v).toNat

/-- The value Lacewing takes: right-aligned, in the format SIGNED selects (R159). -/
def lcwValue (cfg : Word) (code : Int) : Int :=
  if cfgBits cfg F.MDG_CFG_SIGNED == 1 then code else code + 2048

/-- A field of a Lacewing slot's settings in force, those at the last admission point (R173). -/
def State.slotFld (s : State) (k : Nat) (x : Fld) : Nat := s.effFld (x.up (0x10 * k))

/-- A result enters the latch of every enabled slot whose source it is; one still fresh is replaced
and noted as an overrun (R167). -/
def lcwLatch (c e : Nat) (v : Int) (s : State) : State :=
  forN 64 (fun k s =>
    if s.slotFld k F.LCW_SRC_EN == 1 && s.slotFld k F.LCW_SRC_CONV == c &&
        s.slotFld k F.LCW_SRC_ENTRY == e then
      let w := s.lslot k
      let s := s.setLslot k { w with latch := v, latchAt := s.now, fresh := true }
      if w.fresh then
        (s.setFlag F.LCW_STAT_OVR true).setFlagBit (F.LCW_OVR0_SLOTS.up (4 * (k / 32))) (k % 32) true
      else s
    else s) s

/-- A plausibility result: checkable when it was sampled more than 200 ns after the last change of
the pair's level (R161). -/
def plausResult (c : Nat) (sampled : Nat) (code : Int) (s : State) : State :=
  if decide ((s.pair (c / 2)).changedAt + 200 * psNs < sampled) then
    s.setConv c { s.conv c with plaus := some code }
  else s

/-- The code of a differential voltage in mV: 1 code per 1.0 mV, the end codes beyond full scale (R154). -/
def convCode (p n : Int) : Int := max (-2048) (min 2047 (p - n))

/-- The end of a conversion: the result and its stamp are written, Lacewing's latches take it, and the sequence
goes on or ends; a pending trigger is then accepted (R156 to R160, R167). While the outputs are gated it waits
for their release (DESIGN CHOICE: assumption 308). -/
def conversionResult (c : Nat) (p n : Int) (s : State) : State :=
  let v := s.conv c
  let code := convCode p n
  if v.converting && !(s.flag F.FFY_STAT_GATED) then
    let s := s.reach (v.startAt + 1000 * psNs)
    let sampled := v.startAt + 187500
    let e := v.entry
    let ch := bitsOf v.seq (4 * e) 4
    let ovr := s.cflag c F.MDG_DATA_VALID && cfgBits v.cfg F.MDG_CFG_OVR_EN == 1
    let a := R.MDG_DATA + 0x20 * c
    let w := putBits (s.reg a) 0 16 (dataField v.cfg code)
    let w := putBits (putBits (putBits w 16 2 e) 20 4 ch) 24 1 1
    let s := s.setReg a (if ovr then putBits w 25 1 1 else w)
    let s := s.setReg (R.MDG_STAMP + 0x20 * c) (BitVec.ofInt 32 ((sampled + s.ffy.offset * 1000) / 1000))
    let s := lcwLatch c e (lcwValue v.cfg code) s
    let s := if ch == 2 then plausResult c sampled code s else s
    let v := s.conv c
    if e < cfgBits v.cfg F.MDG_CFG_NENT then
      s.setConv c { v with entry := e + 1, converting := false, startAt := v.startAt + 1000 * psNs }
    else
      let s := s.setConv c { v with converting := false }
      let s := s.setFlag (convUp c F.MDG_CSTAT_BUSY) false
      if s.cflag c F.MDG_CSTAT_PEND then
        convAccept c v.pendAt s.now
          ((s.setFlag (convUp c F.MDG_CSTAT_PEND) false).setFlagBit F.MDG_SWTRIG_TRIG c false)
      else s
  else s

/-- A read of MDG_DATAc returns it and clears VALID (R160). -/
def mdgDataRead (c : Nat) (s : State) : Word × State :=
  (s.reg (R.MDG_DATA + 0x20 * c), s.setFlag (convUp c F.MDG_DATA_VALID) false)

/-! ### Spare-slice calibration (R164, R165) -/

/-- The swap interval, ps: below 10 µs acts as 10 µs. -/
def State.swapIntPs (s : State) : Nat := max 10 (s.fld F.MDG_CALINT_INT_US) * psUs

/-- A swap falls due while CAL_EN is 1. The first is due 100 µs after power-good, the next INT_US after the
due instant before it (DESIGN CHOICE: assumption 125). -/
def swapDue (c : Nat) (s : State) : State :=
  let v := s.conv c
  if s.flag F.MDG_CTL_CAL_EN && v.swapDue.isNone && v.swapping.isNone then
    let s := s.reach v.swapNext
    s.setConv c { v with swapDue := some s.now, swapNext := s.now + s.swapIntPs, calTold := false }
  else s

/-- Whether a due swap may start: not gated (R238), not converting, and no conversion start within 32 ns. -/
def State.swapMay (s : State) (c : Nat) : Bool :=
  let v := s.conv c
  v.swapDue.isSome && v.swapping.isNone && !v.converting && !(s.flag F.FFY_STAT_GATED) &&
    (!(s.cflag c F.MDG_CSTAT_BUSY) || decide (s.now + 32 * psNs ≤ v.startAt))

def swapStart (c : Nat) (s : State) : State :=
  if s.swapMay c then s.setConv c { s.conv c with swapDue := none, swapping := some s.now } else s

/-- The end of a swap, 32 ns after its start: the trimmed slice goes into service and the next in
rotation comes out. A slice whose trim failed sets CAL_FAIL and stays out of service. -/
def swapEnd (c : Nat) (trimFail : Bool) (s : State) : State :=
  let v := s.conv c
  match v.swapping with
  | none => s
  | some t =>
    if s.flag F.FFY_STAT_GATED then s else
    let s := s.reach (t + 32 * psNs)
    let spare := s.cfld c F.MDG_CSTAT_SPARE
    let bad := if trimFail then kins spare v.sliceFail else v.sliceFail
    let s := s.setConv c { v with swapping := none, sliceFail := bad }
    let s := if trimFail then s.setFlag (convUp c F.MDG_CSTAT_CAL_FAIL) true else s
    if bad.contains spare then s else s.setFld (convUp c F.MDG_CSTAT_SPARE) ((spare + 1) % 13)

/-- A swap has been due for 10 ms without starting (R165). -/
def calStarved (c : Nat) (s : State) : State :=
  let v := s.conv c
  match v.swapDue with
  | none => s
  | some t =>
    if v.calTold then s
    else
      let s := (s.reach (t + 10 * psMs)).setConv c { v with calTold := true }
      (s.setFlag (convUp c F.MDG_CSTAT_CAL_STARVED) true).report 0x10 c

/-! ### Plausibility pairs (R161 to R163) -/

/-- The expected code of a level (Table 6.3). -/
def plausLevel (k : Nat) : Int :=
  match k with
  | 0 => -1366
  | 1 => -512
  | 2 => 512
  | _ => 1365

/-- One counted check of a converter: a failure adds one, and the count returns to 0 once its last
four counted checks, one at each level, have all passed. -/
def countCheck (level : Nat) (passed : Bool) (v : ConvSt) : ConvSt :=
  let l := ((level, passed) :: v.checks).take 4
  let clean := l.length == 4 && l.all (fun x => x.2) &&
    (List.range 4).all (fun k => l.any (fun x => x.1 == k))
  { v with checks := l, fails := if clean then 0 else if passed then v.fails else v.fails + 1 }

/-- A converter whose failure count has reached FAIL_N is failed (R162). -/
def plausCharge (c level : Nat) (passed : Bool) (s : State) : State :=
  let v := s.conv c
  if v.skip then s
  else
    let v := countCheck level passed v
    let s := s.setConv c v
    if decide (max 1 (s.fld F.MDG_PLAUS_FAIL_N) ≤ v.fails) && !(s.flagBit F.MDG_STAT_FAIL c) then
      ((s.setFlagBit F.MDG_STAT_FAIL c true).setFlag F.GCR_UNIT_FAIL_MDG true).report 0x13 c
    else s

/-- The check of one pair at an admission point (Table 6.2), and the next level. -/
def plausPair (k : Nat) (s : State) : State :=
  let ca := 2 * k
  let cb := 2 * k + 1
  match (s.conv ca).plaus, (s.conv cb).plaus with
  | some a, some b =>
    let lv := (s.pair k).level
    let e := plausLevel lv
    let tol : Int := s.fld F.MDG_PLAUS_TOL
    let near := fun (x y : Int) => decide (((x - y).natAbs : Int) ≤ tol)
    let s :=
      if !(near a e) && !(near b e) && near a b then
        (s.setFlagBit F.MDG_STAT_PL_SRC k true).report 0x12 k
      else plausCharge cb lv (near b e) (plausCharge ca lv (near a e) s)
    let s := s.setConv ca { s.conv ca with skip := false }
    let s := s.setConv cb { s.conv cb with skip := false }
    s.setPair k { level := (lv + 1) % 4, changedAt := s.now }
  | _, _ => s

/-- Midge's work at an admission point: the plausibility checks (R162), then the sweep trigger (R156). -/
def mdgAdmit (s : State) : State :=
  let s := if s.flag F.MDG_PLAUS_EN then forN 8 plausPair s else s
  hwTrigger 1 0 (forN 16 (fun c s => s.setConv c { s.conv c with plaus := none }) s)

/-- MDG_REARM of a converter: in Blocked or Servicing it is no longer failed and starts again with
a count of 0 from the next level; in another state the write is ignored (R163). -/
def mdgRearm (c : Nat) (s : State) : State :=
  if s.quiet then
    let s := s.setFlagBit F.MDG_STAT_FAIL c false
    let s := s.setFlag F.GCR_UNIT_FAIL_MDG (s.fld F.MDG_STAT_FAIL != 0)
    s.setConv c { s.conv c with fails := 0, checks := [], skip := true }
  else s

/-! ### The commands of this unit -/

/-- MDG_SWTRIG: a software trigger. -/
def execMdgSwtrig (c : Conv) (s : State) : Host.Outcome State Fault Refusal :=
  .next (swTrigger c.val s)
/-- MDG_TRIGGER: a hardware trigger reaches a converter that has a hardware source (R157). The commands
of the sources themselves trigger within their own step (DESIGN CHOICE). -/
def execMdgTrigger (c : Conv) (s : State) : Host.Outcome State Fault Refusal :=
  .next (if s.cfld c.val F.MDG_CFG_TRIG_SRC == 0 then s else convTrigger c.val s)
/-- CONVERSION_START -/
def execConversionStart (c : Conv) (s : State) : Host.Outcome State Fault Refusal :=
  .next (conversionStart c.val s)
/-- CONVERSION_RESULT -/
def execConversionResult (c : Conv) (p n : Int) (s : State) :
    Host.Outcome State Fault Refusal := .next (conversionResult c.val p n s)
/-- MDG_DATA_READ -/
def execMdgDataRead (c : Conv) (s : State) : Host.Outcome State Fault Refusal :=
  let (w, t) := mdgDataRead c.val s
  .next { t with hst := { t.hst with rdata := w } }
/-- SWAP_DUE -/
def execSwapDue (c : Conv) (s : State) : Host.Outcome State Fault Refusal := .next (swapDue c.val s)
/-- SWAP_START -/
def execSwapStart (c : Conv) (s : State) : Host.Outcome State Fault Refusal :=
  .next (swapStart c.val s)
/-- SWAP_END -/
def execSwapEnd (c : Conv) (trimFail : Bool) (s : State) : Host.Outcome State Fault Refusal :=
  .next (swapEnd c.val trimFail s)
/-- CAL_STARVED -/
def execCalStarved (c : Conv) (s : State) : Host.Outcome State Fault Refusal :=
  .next (calStarved c.val s)
/-- MDG_REARM -/
def execMdgRearm (c : Conv) (s : State) : Host.Outcome State Fault Refusal :=
  .next (mdgRearm c.val s)

end Sys2Proof.Machine
end

