-- ==== Sys2Proof/Machine/Lacewing.lean ====
section
/-!
DEFINITION. Lacewing (R166 to R174): the visits of a sweep, the stages a slot's results pass at the
admission point, and what commits or is restored.
-/

namespace Sys2Proof.Machine

/-- Rotations in a sweep (R166). -/
def rounds (periodNs : Nat) : Nat := max 1 (periodNs / 1000)

/-- The instants of a slot's visits before the admission point `a`, rising. -/
def visitTimes (periodNs a slot : Nat) : List Nat :=
  ((List.range (rounds periodNs)).map
    (fun j => a - j * 1000 * psNs - (slot + 1) * 15625)).reverse

/-- The next visit of a slot: the first of this sweep that has not passed and is later than the slot's last.
While a new grid waits, visits are counted back from the end of the sweep under way (DESIGN CHOICE: assumption
208). -/
def State.nextVisit (s : State) (k : Nat) : Option Nat :=
  match s.crk.nextAdm with
  | none => none
  | some a =>
    (visitTimes s.period a k).find? (fun t =>
      decide (s.now ≤ t) && (match (s.lslot k).visitedAt with
        | none => true
        | some v => decide (v < t)))

/-- The median of five values: the third when sorted. -/
def median5 (l : List Int) : Int := (sortBy (fun a b => decide (a ≤ b)) l).getD 2 0

/-- A fresh result taken into the median stage (R168). -/
def takeFresh (med : Bool) (w : LcwSlot) : LcwSlot :=
  let win := (w.latch :: w.win).take 5
  let out := if med && win.length == 5 then median5 win else w.latch
  { w with fresh := false, win := win, outs := out :: w.outs }

/-- A visit of a slot: a latch marked fresh before the visit interval is taken (R167). -/
def lcwVisit (k : Nat) (s : State) : State :=
  match s.nextVisit k with
  | none => s
  | some t =>
    let s := s.reach t
    let w := { s.lslot k with visitedAt := some t }
    if w.fresh && decide (w.latchAt < t) then
      s.setLslot k (takeFresh (s.slotFld k F.LCW_SRC_MED == 1) w)
    else s.setLslot k w

/-- Decimation (Table 6.4) of the outputs taken in the sweep, newest first; `prev` is the held d. -/
def decimate (dec : Nat) (prev : Int) (outs : List Int) : Int :=
  match outs with
  | [] => if dec == 2 then 0 else prev
  | x :: _ =>
    let sum := outs.foldl (· + ·) 0
    if dec == 1 then tdiv sum outs.length else if dec == 2 then sum else x

/-- The shift of DC blocking: 4 to 24. -/
def dcbK (k : Nat) : Nat := max 4 (min 24 k)

/-- The output stage (R171), before saturation. -/
def scaleOut (y ofs gain : Int) (shift : Nat) : Int := rshiftRound ((y - ofs) * gain) shift

/-- One slot at an admission point: its stages with the settings now in force, and what it delivers in this
sweep (R168 to R172). `restart` says that the slot was enabled or given another source by the settings that
come into force here: outputs taken before are the old source's, and not the first output of R170. A latch
still fresh at a restart is kept (DESIGN CHOICE: assumption 208), and only a valid slot sets SAT (DESIGN
CHOICE: assumption 208). -/
def lcwSlotAdmit (k : Nat) (restart : Bool) (s : State) : State :=
  let w := s.lslot k
  let w := if restart then { w with win := [], mSet := false } else w
  let en := s.slotFld k F.LCW_SRC_EN == 1
  let c := s.slotFld k F.LCW_SRC_CONV
  let d := decimate (s.slotFld k F.LCW_SRC_DEC) w.d w.outs
  let first := !w.mSet && !w.outs.isEmpty && !restart
  let m0 := if first then d * 65536 else w.m
  let dcb := s.slotFld k F.LCW_SRC_DCB == 1
  let frz := s.slotFld k F.LCW_SRC_FRZ == 1 || s.effFld F.LCW_CTL_FREEZE_ALL == 1
  let y := if dcb then d - m0 / 65536 else d
  let m := if dcb && !frz then m0 + (d * 65536 - m0) / 2 ^ dcbK (s.slotFld k F.LCW_SRC_K) else m0
  let ofs := (BitVec.ofNat 16 (s.slotFld k F.LCW_OFS_OFS)).toInt
  let gain := (s.effReg (R.LCW_GAIN + 0x10 * k)).toInt
  let raw := scaleOut y ofs gain (s.slotFld k F.LCW_SRC_SHIFT)
  let age := if w.outs.isEmpty then min 65535 (w.age + 1) else 0
  let stale := decide (max 1 (s.effFld F.LCW_CFG_STALE_N) ≤ age)
  let on := s.effFld F.LCW_CTL_EN == 1
  let src := s.flagBit F.MDG_CTL_EN c && !(s.flagBit F.MDG_STAT_FAIL c)
  let valid := on && en && src && !stale
  let out := if !on then 0 else if valid then satInt 32 raw else w.last
  s.setLslot k { w with
    outs := [], dW := if en then d else w.d, mW := if en then m else w.m
    mSetW := if en then w.mSet || first else w.mSet
    outW := out, validW := valid, satW := valid && outOf 32 raw
    staleW := on && en && src && stale && w.wasValid, age := age }

/-- Whether a slot is enabled or changes its source by the settings that come into force. -/
def slotRestarts (old new : Word) : Bool :=
  let on := bitsOf new F.LCW_SRC_EN.lo 1 == 1
  on && (bitsOf old F.LCW_SRC_EN.lo 1 == 0 || bitsOf old 0 6 != bitsOf new 0 6)

/-- Lacewing at an admission point; `old` holds the settings in force before it. -/
def lcwAdmit (old : Tab Word) (s : State) : State :=
  forN 64 (fun k s =>
    let a := R.LCW_SRC + 0x10 * k
    lcwSlotAdmit k (slotRestarts (tget regReset old a) (s.effReg a)) s) s

/-- The commit of a sweep: filter states, outputs, valid bits and sticky status become visible. -/
def lcwCommit (s : State) : State :=
  forN 64 (fun k s =>
    let w := s.lslot k
    let s := s.setLslot k { w with
      d := w.dW, m := w.mW, mSet := w.mSetW
      last := if w.validW then w.outW else w.last, wasValid := w.validW }
    let s := s.setReg (R.LCW_OUT + 0x10 * k) (BitVec.ofInt 32 w.outW)
    let s := s.setFlagBit (F.LCW_VALID0_SLOTS.up (4 * (k / 32))) (k % 32) w.validW
    let s := if w.satW then s.setFlag F.LCW_STAT_SAT true else s
    if w.staleW then s.setFlag F.LCW_STAT_STALE true else s) s

/-- LCW_VISIT -/
def execLcwVisit (slot : Fin 64) (s : State) : Host.Outcome State Fault Refusal :=
  .next (lcwVisit slot.val s)

end Sys2Proof.Machine
end

