-- ==== Sys2Proof/Machine/Cicada.lean ====
section
/-!
DEFINITION. Cicada's registers (R371 to R379): software reports, reaction entries, clearing of
status bits, the fault log's window, and the arming of a checker injection.
-/

namespace Sys2Proof.Machine

/-- A write of CCD_SWREP reports line 0x38 + LINE with its DETAIL (R371). -/
def ccdSwrep (v : Word) (s : State) : State :=
  s.report (0x38 + bitsOf v F.CCD_SWREP_LINE.lo 3) (bitsOf v F.CCD_SWREP_DETAIL.lo 22)

/-- The reaction entry a byte of CCD_RCTi takes from a write: a reserved class leaves the entry as
it is, and CLASS is RWL (Table 15.7, R13). -/
def rctEntry (lock : Bool) (old new : Nat) : Nat :=
  if 5 ≤ new % 8 then old
  else if lock then old % 8 + new % 32 / 8 * 8
  else new % 32

/-- Whether a byte of a CCD_RCTi write is refused: it gives its line a reserved class. -/
def rctReserved (new : Nat) : Bool := decide (5 ≤ new % 8)

/-- Whether a byte of a CCD_RCTi write is a locked-field write. -/
def rctLocked (lock : Bool) (old new : Nat) : Bool := lock && (new % 8 != old % 8)

/-- A write of CCD_RCTi (Table 15.7, R374). -/
def rctWrite (i : Nat) (v : Word) (s : State) : State :=
  let off := R.CCD_RCT + 4 * i
  let lock := s.locked
  let old := fun k => bitsOf (s.reg off) (8 * k) 8
  let new := fun k => bitsOf v (8 * k) 8
  let val := (List.range 4).foldl (fun w k => putBits w (8 * k) 8 (rctEntry lock (old k) (new k)))
    (s.reg off)
  let anyRes := (List.range 4).any (fun k => rctReserved (new k))
  let anyLock := (List.range 4).any (fun k => rctLocked lock (old k) (new k))
  let s := (s.setReg off val).ccdSum
  if anyLock || (lock && anyRes) then s.lockedWrite off
  else if anyRes then s.rejWrite off else s

/-- A clearing write of CCD_STAT0 or CCD_STAT1 (R374). -/
def statClear (hi : Bool) (v : Word) (s : State) : State :=
  (s.baseWrite (if hi then R.CCD_STAT1 else R.CCD_STAT0) v).ccdSum

/-- The log entry at an index. -/
def State.logAt (s : State) (i : Nat) : Option LogEntry :=
  (s.ccd.log.find? (fun x => x.1 == i)).map (fun x => x.2)

/-- The order of the entries of one command: by time, then by line (R375). -/
def logBefore (a b : LogEntry) : Bool :=
  decide (a.time < b.time) || (a.time == b.time && decide (a.line ≤ b.line))

/-- Reports that arrive together are logged in ascending line order, and the lowest of the lines that
made TRIPCLASS rise at once is FIRST (R375, Table 15.13): the entries written since `s0`. -/
def State.logOrder (s0 s : State) : State :=
  let h := s0.fld F.CCD_LOGHEAD_NEXT
  let n := (s.fld F.CCD_LOGHEAD_NEXT + 4096 - h) % 4096
  if n < 2 then s
  else
    let idx := (List.range n).map (fun k => (h + k) % 4096)
    let es := sortBy logBefore (idx.filterMap s.logAt)
    let log := forL (idx.zip es) (fun (x : Nat × LogEntry) l => tput x.1 x.2 l) s.ccd.log
    let s1 := { s with ccd := { s.ccd with log := log } }
    if s.flag F.CCD_SUM_TRIPCLASS && !(s0.flag F.CCD_SUM_TRIPCLASS) then
      (match es.find? (fun e => s.lineTrip e.line) with
      | some e => s1.setFld F.CCD_SUM_FIRST e.line
      | none => s1)
    else s1

/-- A read of CCD_LOG0 latches the whole entry at CCD_LIDX (R379). -/
def ccdLogRead (s : State) : State :=
  match s.logAt (s.fld F.CCD_LIDX_INDEX) with
  | none => (((s.setReg R.CCD_LOG0 0).setReg R.CCD_LOG1 0).setReg R.CCD_LOG2 0).setReg R.CCD_LOG3 0
  | some e =>
    (((s.setReg R.CCD_LOG0 (BitVec.ofNat 32 e.time)).setReg R.CCD_LOG1
      (BitVec.ofNat 32 (e.time / 2 ^ 32))).setReg R.CCD_LOG2
      (BitVec.ofNat 32 (e.detail % 2 ^ 22 + 2 ^ 24 * (e.line % 64) + 2 ^ 31))).setReg R.CCD_LOG3 e.sweep

/-- Whether an injection may be armed now (Table 15.8): SRAM banks 0 to 3 in every operating state,
the rest in Blocked or Servicing. -/
def injAllowed (s : State) (target bank : Nat) : Bool :=
  ((target == 1 || target == 2) && decide (bank < 4)) ||
    (decide (1 ≤ target) && decide (target ≤ 6) && s.quiet) || (target == 0)

/-- A write of CCD_INJ (R376, R377): TARGET 7 discards it; one that arms, or re-targets an armed one,
outside its condition is discarded as a rejected write. An injection of TARGET 0 has nothing to act on. -/
def ccdInj (v : Word) (s : State) : State :=
  let t := bitsOf v 0 3
  if t == 7 then s
  else if (writes1 v F.CCD_INJ_ARM || s.flag F.CCD_INJ_ARM) && !(injAllowed s t (bitsOf v 4 3)) then s.rejWrite R.CCD_INJ
  else s.baseWrite R.CCD_INJ v

/-- CCD_SWREP -/
def execCcdSwrep (v : Word) (s : State) : Host.Outcome State Fault Refusal := .next (ccdSwrep v s)
/-- RCT_WRITE -/
def execRctWrite (i : Fin 16) (v : Word) (s : State) : Host.Outcome State Fault Refusal :=
  .next (rctWrite i.val v s)
/-- STAT_CLEAR -/
def execStatClear (hi : Bool) (v : Word) (s : State) : Host.Outcome State Fault Refusal :=
  .next (statClear hi v s)
/-- CCD_LOG_READ: the read returns CCD_LOG0. -/
def execCcdLogRead (s : State) : Host.Outcome State Fault Refusal :=
  let s := ccdLogRead s
  .next { s with hst := { s.hst with rdata := s.reg R.CCD_LOG0 } }
/-- CCD_INJ_ARM -/
def execCcdInjArm (v : Word) (s : State) : Host.Outcome State Fault Refusal := .next (ccdInj v s)

end Sys2Proof.Machine
end

