-- ==== Sys2Proof/Machine/Hive.lean ====
section
/-!
DEFINITION. Hive (R299 to R313): queues and items, service tags and flow locks, flush, audit, tasks
with their event flags, and the offer of tasks to cores.
-/

namespace Sys2Proof.Machine

/-- The size of the item pool, and the number of service tags. -/
def poolSize : Nat := 2097152
def tagCount : Nat := 32768

/-- The address of a queue's descriptor and of an item slot (R299, R300). -/
def descAddr (q : Nat) : Nat := 0x02000000 + 16 * q
def slotAddr (i : Nat) : Nat := 0x03000000 + 8 * i

/-- A queue descriptor (Table 12.1). -/
structure QDesc where
  head : Nat
  tail : Nat
  depth : Nat
  en : Bool
  hold : Bool
  atomic : Bool
  nen : Bool
  ntask : Nat
  nflag : Nat
  limit : Nat
  deriving DecidableEq, Repr

/-- The descriptor of a queue as memory holds it. -/
def State.desc (s : State) (q : Nat) : QDesc :=
  let a := descAddr q
  let fl := (s.ld8 (a + 11)).toNat
  { head := s.rdN a 4 % 2 ^ 21, tail := s.rdN (a + 4) 4 % 2 ^ 21, depth := s.rdN (a + 8) 3
    en := fl.testBit 0, hold := fl.testBit 1, atomic := fl.testBit 2, nen := fl.testBit 3
    ntask := s.rdN (a + 12) 2 % 4096, nflag := (s.ld8 (a + 14)).toNat % 64
    limit := (s.ld8 (a + 15)).toNat }

def b2n (b : Bool) : Nat := if b then 1 else 0

/-- The 16 bytes of a descriptor. -/
def QDesc.bytes (d : QDesc) : List Byte :=
  leBytes 4 d.head ++ leBytes 4 d.tail ++ leBytes 3 d.depth ++
    leBytes 1 (b2n d.en + 2 * b2n d.hold + 4 * b2n d.atomic + 8 * b2n d.nen) ++
    leBytes 2 d.ntask ++ leBytes 1 d.nflag ++ leBytes 1 d.limit

def State.setDesc (s : State) (q : Nat) (d : QDesc) : State := s.store (descAddr q) d.bytes

/-- The slot after an item's, in its queue. -/
def State.nextSlot (s : State) (i : Nat) : Nat := tget (fun _ => 0) s.hive.link i % poolSize

/-- A link word written; an armed injection of TARGET 6 spoils it (R377). -/
def State.setLink (s : State) (i v : Nat) : State :=
  let hit := s.injected 6
  let s := if hit then s.injDone else s
  { s with hive := { s.hive with
      link := tset (fun _ => 0) i v s.hive.link
      linkBad := if hit then kins i s.hive.linkBad else kdel i s.hive.linkBad } }

/-- The slots of a queue's first `n` items, oldest first. -/
def State.items (s : State) : Nat → Nat → List Nat
  | 0, _ => []
  | n + 1, i => i :: s.items n (s.nextSlot i)

/-- The `k`-th number that a rising list does not hold. -/
def nthFree (used : List Nat) (k : Nat) : Nat :=
  used.foldl (fun x u => if u ≤ x then x + 1 else x) k

/-- A poisoned descriptor met by an operation: HIV_STAT.POISON, the report, and its items counted in
HIV_STRAND once (R307). -/
def descPoison (q : Nat) (s : State) : State :=
  let s := s.checkRead (descAddr q) 16
  let s := if s.hive.stranded.contains q then s
    else { s.setFld F.HIV_STRAND_ITEMS (s.fld F.HIV_STRAND_ITEMS + (s.desc q).depth) with
           hive := { s.hive with stranded := kins q s.hive.stranded } }
  (s.setFlag F.HIV_STAT_POISON true).report 0x1F q

/-- An operation's read of a queue's descriptor corrects its single-bit errors (R25). No descriptor is read
of a number that no queue has, nor while Hive is initialised. -/
def descRead (q : Nat) (s : State) : State :=
  if decide (1048576 ≤ q) || s.hive.init || s.poisoned (descAddr q) 16 then s else s.correct (descAddr q) 16

/-! ### Tasks and their flags (R310 to R313) -/

/-- A task is ready: enabled, with a flag its mask lets through (R310). -/
def HTask.ready (t : HTask) : Bool := t.en && (t.flags &&& t.mask) != 0

/-- A task is offerable to core n (R312). -/
def State.offerable (s : State) (t n : Nat) : Bool :=
  let ht := s.htask t
  ht.ready && ht.aff.testBit n &&
    (List.range 8).all (fun m =>
      (s.hcore m).cur != some t && (m == n || (s.hcore m).offer != some t))

/-- Bit 0 of a core's IPEND is set while it holds an offer. -/
def offerIpend (n : Nat) (held : Bool) (s : State) : State :=
  let c := s.core n
  s.setCore n { c with ipend := putBits c.ipend 0 1 (b2n held) }

/-- Offers whose task is no longer offerable are withdrawn (R312). -/
def hivRefresh (s : State) : State :=
  forN 8 (fun n s =>
    match (s.hcore n).offer with
    | none => s
    | some t =>
      if s.offerable t n then s
      else offerIpend n false (s.setHcore n { s.hcore n with offer := none })) s

/-- A flag of a task set (R310). -/
def hivSetFlag (t f : Nat) (s : State) : State :=
  let ht := s.htask t
  s.setHtask t { ht with flags := ht.flags ||| BitVec.ofNat 64 (2 ^ f) }

/-- The weight of a group. -/
def State.weight (s : State) (g : Nat) : Nat :=
  bitsOf (s.reg (R.HIV_GW + 4 * (g / 4))) (8 * (g % 4)) 8

/-- The task an offer goes to in a group: the first offerable above `last`, ascending, wrapping. -/
def pickTask (ts : List Nat) (last : Nat) : Option Nat :=
  match ts.find? (fun t => decide (last < t)) with
  | some t => some t
  | none => ts.head?

/-- The choice of an offer for core n with its own credits (R313). -/
def hivOffer (n : Nat) (s : State) : State :=
  let h := s.hcore n
  let ts := (s.hive.tasks.map (fun x => x.1)).filter (fun t => s.offerable t n)
  let e := (List.range 64).filter (fun g =>
    decide (0 < s.weight g) && ts.any (fun t => (s.htask t).group == g))
  match h.offer, e with
  | some _, _ => s
  | none, [] => s
  | none, g0 :: r =>
    let credit := e.foldl (fun c g => tset (fun _ => 0) g (tget (fun _ => 0) c g + (s.weight g : Int)) c)
      h.credit
    let best := r.foldl (fun b g =>
      if tget (fun _ => 0) credit b < tget (fun _ => 0) credit g then g else b) g0
    let sum : Int := ((e.map s.weight).foldl (· + ·) 0 : Nat)
    let credit := tset (fun _ => 0) best (tget (fun _ => 0) credit best - sum) credit
    match pickTask (ts.filter (fun t => (s.htask t).group == best)) (tget (fun _ => 0) h.last best) with
    | none => s
    | some t =>
      offerIpend n true (s.setHcore n { h with
        offer := some t, credit := credit, last := tset (fun _ => 0) best t h.last })

/-- A read of HIV_TAKEn: what it returns and the state after it (R312). -/
def hivTake (n : Nat) (s : State) : Word × State :=
  match (s.hcore n).offer with
  | none => (0, s)
  | some t =>
    let s := s.setHcore n { s.hcore n with offer := none, cur := some t }
    (BitVec.ofNat 32 (t + 2 ^ 31), hivRefresh (offerIpend n false s))

/-- HIV_CURn as it reads. -/
def hivCur (n : Nat) (s : State) : Word :=
  match (s.hcore n).cur with
  | none => 0
  | some t => BitVec.ofNat 32 (t + 2 ^ 31)

/-- The current task returned (R312). -/
def hivYield (n : Nat) (s : State) : State :=
  s.setHcore n { s.hcore n with cur := none }

/-- A write of a weight register: credits and last go to 0 (R313). -/
def hivGwWrite (i : Nat) (v : Word) (s : State) : State :=
  forN 8 (fun n s => s.setHcore n { s.hcore n with credit := [], last := [] })
    (s.setReg (R.HIV_GW + 4 * i) v)

/-! ### Push and pop (R301 to R305) -/

/-- The status codes of Table 12.2. -/
def qOk : Nat := 0
def qEmpty : Nat := 1
def qFull : Nat := 2
def qPoolEmpty : Nat := 3
def qDisabled : Nat := 4
def qFlowBusy : Nat := 5
def qServiceFull : Nat := 6
def qKey : Nat := 7
def qPoison : Nat := 8
def qRange : Nat := 9

/-- The flow key of an item: bits [12:0] of its bytes 0 and 1 (R303). -/
def flowKey (item : List Byte) : Nat := leNat (item.take 2) % 8192

/-- Whether a flow is locked by an item in service. -/
def State.flowLocked (s : State) (key : Nat) : Bool :=
  s.hive.svc.any (fun x => x.2.flow == some key)

/-- The checks every operation on a queue begins with. -/
def State.queueState (s : State) (q : Nat) : Nat :=
  if decide (1048576 ≤ q) then qRange
  else if s.hive.init then qDisabled
  else if s.poisoned (descAddr q) 16 then qPoison
  else if !(s.desc q).en then qDisabled
  else qOk

/-- The failure a push meets, 0 when it succeeds. `full` says whether the limit counts (it does not
in a round with a pop that succeeds), `free` how many slots the pool offers it. -/
def State.pushCode (s : State) (q : Nat) (item : List Byte) (full : Bool) (free : Nat) : Nat :=
  let c := s.queueState q
  let d := s.desc q
  if c != qOk then c
  else if s.hive.flush == some q then qDisabled
  else if d.atomic && decide (6 ≤ flowKey item / 1024) then qKey
  else if full && decide (2 ^ d.limit ≤ d.depth) then qFull
  else if free == 0 then qPoolEmpty
  else qOk

/-- An item linked behind TAIL in a slot taken from the pool (R301). `avoid` is a slot that a pop of
the same round has freed, which is not free before the round ends. -/
def pushItem (q : Nat) (item : List Byte) (avoid : List Nat) (s : State) : State :=
  let busy := avoid.foldl (fun l x => kins x l) s.hive.used
  let i := nthFree busy (Config.freeSlot s.free % (poolSize - busy.length))
  let s := s.draw
  let d := s.desc q
  let s := { s with hive := { s.hive with
      used := kins i s.hive.used, queued := s.hive.queued + 1 } }
  let s := s.store (slotAddr i) item
  let s := if d.depth == 0 then s else s.setLink d.tail i
  s.setDesc q { d with head := if d.depth == 0 then i else d.head, tail := i, depth := d.depth + 1 }

/-- The notification of a push that took DEPTH from 0 to 1 (R305). -/
def pushNotify (q : Nat) (s : State) : State :=
  let d := s.desc q
  if d.nen && d.depth == 1 then hivSetFlag d.ntask d.nflag s else s

/-- What a failed push leaves: FULL_CNT (Table 12.5), and a poisoned descriptor met. -/
def pushFailed (q code : Nat) (s : State) : State :=
  if code == qFull || code == qPoolEmpty then s.bump F.HIV_ERRCNT_FULL_CNT 1
  else if code == qPoison then descPoison q s else s

/-- A push evaluated alone (R301); `avoid` is what a failed pop of the same round has freed. -/
def pushAlone (q : Nat) (item : List Byte) (avoid : List Nat) (s : State) : Word × State :=
  let s := descRead q s
  let c := s.pushCode q item true (poolSize - s.hive.used.length - avoid.length)
  if c == qOk then (0, pushNotify q (pushItem q item avoid s))
  else (BitVec.ofNat 32 c, pushFailed q c s)

/-- QPUSH: the status word and the state (R301). -/
def hivPush (q : Nat) (item : List Byte) (s : State) : Word × State := pushAlone q item [] s

/-- Whether an item is poisoned (R307). -/
def State.itemBad (s : State) (i : Nat) : Bool := s.poisoned (slotAddr i) 8 || s.hive.linkBad.contains i

/-- The slots a pop looks at: the oldest item, and in an ATOMIC queue the first 16 (R303). -/
def State.popSlots (s : State) (d : QDesc) : List Nat :=
  s.items (min d.depth (if d.atomic then 16 else 1)) d.head

/-- Whether a pop takes the item: in an ATOMIC queue its flow is unlocked (R303), or it is poisoned (R307). -/
def State.popHit (s : State) (d : QDesc) (i : Nat) : Bool :=
  s.itemBad i || !d.atomic || !(s.flowLocked (flowKey (s.rdBytes (slotAddr i) 8)))

/-- The item a pop takes: its predecessor in the queue, its slot, and whether it is poisoned. -/
def State.popItem (s : State) (d : QDesc) : Option (Option Nat × Nat × Bool) :=
  let l := s.popSlots d
  (((none :: l.map some).zip l).find? (fun x => s.popHit d x.2)).map (fun x => (x.1, x.2, s.itemBad x.2))

/-- A pop of an ATOMIC queue reads the items from the oldest to the one it takes (R25, R303). -/
def popReads (d : QDesc) (s : State) : State :=
  let l := s.popSlots d
  let n := (l.takeWhile (fun i => !(s.popHit d i))).length
  if d.atomic then forL (l.take (n + 1)) (fun i s => s.correct (slotAddr i) 8) s else s

/-- An item unlinked from its queue. -/
def unlinkItem (q : Nat) (d : QDesc) (prev : Option Nat) (i : Nat) (s : State) : State :=
  let nxt := s.nextSlot i
  let s := match prev with
    | none => s
    | some p => if d.tail == i then s else s.setLink p nxt
  let head := match prev with
    | none => if d.depth == 1 then d.head else nxt
    | some _ => d.head
  let tail := match prev with
    | none => d.tail
    | some p => if d.tail == i then p else d.tail
  { s with hive := { s.hive with queued := s.hive.queued - 1 } }.setDesc q
    { d with head := head, tail := tail, depth := d.depth - 1 }

/-- A slot returned to the pool. -/
def freeSlot (i : Nat) (s : State) : State :=
  { s with hive := { s.hive with used := kdel i s.hive.used, linkBad := kdel i s.hive.linkBad } }

/-- What a pop gives: its status word, the item's bytes when there are any, the slot it freed. -/
structure PopOut where
  status : Word
  item : Option (List Byte)
  freed : List Nat
  deriving DecidableEq, Repr

def popFail (c : Nat) : PopOut := { status := BitVec.ofNat 32 c, item := none, freed := [] }

/-- A pop of the item chosen: freed, or in service with a tag when HOLD is set (R301, R302). -/
def popTake (q : Nat) (d : QDesc) (prev : Option Nat) (i : Nat) (s : State) : PopOut × State :=
  let s := s.correct (slotAddr i) 8
  let item := s.rdBytes (slotAddr i) 8
  let s := unlinkItem q d prev i s
  if d.hold then
    let tags := s.hive.svc.map (fun x => x.1)
    let tag := nthFree tags (Config.freeTag s.free % (tagCount - tags.length))
    let s := s.draw
    let v : SvcSt := { slot := i, flow := if d.atomic then some (flowKey item) else none }
    let s := { s with hive := { s.hive with
        svc := insBy (fun a b => decide (a.1 ≤ b.1)) (tag, v) s.hive.svc } }
    ({ status := BitVec.ofNat 32 (2 ^ 15 + tag * 2 ^ 16), item := some item, freed := [] }, s)
  else ({ status := 0, item := some item, freed := [i] }, freeSlot i s)

/-- QPOP: what it returns and the state (R301 to R303, R307). -/
def hivPop (q : Nat) (s : State) : PopOut × State :=
  let s := descRead q s
  let c := s.queueState q
  let d := s.desc q
  if c == qPoison then (popFail c, descPoison q s)
  else if c != qOk then (popFail c, s)
  else if d.depth == 0 then (popFail qEmpty, s)
  else
    let s := popReads d s
    match s.popItem d with
    | none => (popFail qFlowBusy, s)
    | some (prev, i, true) =>
      let s := s.checkRead (slotAddr i) 8
      let s := freeSlot i (unlinkItem q d prev i s)
      let s := s.clearPoison (slotAddr i) 8
      ({ popFail qPoison with freed := [i] }, (s.setFlag F.HIV_STAT_POISON true).report 0x1F q)
    | some (prev, i, false) =>
      if d.hold && decide (tagCount ≤ s.hive.svc.length) then (popFail qServiceFull, s)
      else popTake q d prev i s

/-- A push and a pop of one queue in one round (R304, Table 12.3): the push's status, what the pop
gives, and the state. At DEPTH 0 the pop takes the pushed item by cut-through, or leaves it queued
when it is refused; a pop that fails is applied first; one that succeeds makes room for the push,
but its slot is free only after the round. -/
def hivRound (q : Nat) (item : List Byte) (s : State) : Word × PopOut × State :=
  let s := descRead q s
  let d := s.desc q
  if s.queueState q == qOk && d.depth == 0 then
    let c := s.pushCode q item false (poolSize - s.hive.used.length)
    if c == qOk then
      let (p, t) := hivPop q (pushItem q item [] s)
      if p.item.isSome then (0, p, t) else (0, p, pushNotify q t)
    else
      let (p, t) := hivPop q s
      (BitVec.ofNat 32 c, p, pushFailed q c t)
  else
    let (p, t) := hivPop q s
    if p.item.isSome then
      let c := t.pushCode q item false (poolSize - t.hive.used.length - p.freed.length)
      if c == qOk then (0, p, pushItem q item p.freed t)
      else (BitVec.ofNat 32 c, p, pushFailed q c t)
    else
      let (w, u) := pushAlone q item p.freed t
      (w, p, u)

/-- A write of a tag to HIV_DONE (R302). -/
def hivRelease (tag : Nat) (s : State) : State :=
  match s.hive.svc.find? (fun x => x.1 == tag) with
  | some (_, v) =>
    freeSlot v.slot { s with hive := { s.hive with svc := s.hive.svc.filter (fun x => x.1 != tag) } }
  | none =>
    let s := (s.setFlag F.HIV_STAT_REL_ERR true).bump F.HIV_ERRCNT_REL_CNT 1
    s.report 0x1E tag

/-! ### Commands of the register block (R306, R309, R310) -/

/-- HIV_QCMD.WR: the error code of its rejection, 0 when it is accepted (R306, Table 12.5). -/
def State.wrErr (s : State) (q : Nat) : Nat :=
  let bad := s.poisoned (descAddr q) 16
  let d := s.desc q
  let depth := if bad then 0 else d.depth
  let lim := s.fld F.HIV_QCFG_LIMIT_EXP
  let clears := d.en && !(s.flag F.HIV_QCFG_EN) && !bad
  if s.flag F.HIV_QCFG_ATOMIC && !(s.flag F.HIV_QCFG_HOLD) then 3
  else if decide (21 < lim) then 2
  else if clears then 0
  else if decide (2 ^ lim < depth) then 2
  else if decide (0 < depth) && (s.flag F.HIV_QCFG_HOLD != d.hold || s.flag F.HIV_QCFG_ATOMIC != d.atomic) then 1
  else 0

/-- HIV_QCMD.WR. A poisoned descriptor is rewritten with DEPTH 0 (R307). -/
def queueWr (s : State) : State :=
  let q := s.fld F.HIV_QSEL_QUEUE
  let e := s.wrErr q
  let s := descRead q s
  let s := s.setFld F.HIV_QCMD_ERR e
  if e == 0 then
    let bad := s.poisoned (descAddr q) 16
    let d := s.desc q
    let n : QDesc := { head := if bad then 0 else d.head, tail := if bad then 0 else d.tail
                       depth := if bad then 0 else d.depth
                       en := s.flag F.HIV_QCFG_EN, hold := s.flag F.HIV_QCFG_HOLD
                       atomic := s.flag F.HIV_QCFG_ATOMIC, nen := s.flag F.HIV_QCFG_NEN
                       ntask := s.fld F.HIV_QCFG_NTASK, nflag := s.fld F.HIV_QCFG_NFLAG
                       limit := s.fld F.HIV_QCFG_LIMIT_EXP }
    let s := if bad then descPoison q s else s
    let s := s.setDesc q n
    if bad then { s with hive := { s.hive with stranded := kdel q s.hive.stranded } } else s
  else s.rejWrite R.HIV_QCMD

/-- HIV_QCMD.RD -/
def queueRd (s : State) : State :=
  let q := s.fld F.HIV_QSEL_QUEUE
  let s := s.setFld F.HIV_QCMD_ERR 0
  if s.poisoned (descAddr q) 16 then descPoison q s
  else
    let s := s.correct (descAddr q) 16
    let d := s.desc q
    let s := s.setReg R.HIV_QCFG (BitVec.ofNat 32 (b2n d.en + 2 * b2n d.hold + 4 * b2n d.atomic +
      8 * b2n d.nen + 16 * (d.limit % 32) + 2 ^ 14 * d.nflag + 2 ^ 20 * d.ntask))
    s.setFld F.HIV_QDEPTH_DEPTH d.depth

/-- HIV_QCMD.FLUSH starts a flush of queue QSEL; one that runs goes on. -/
def flushStart (s : State) : State :=
  match s.hive.flush with
  | some _ => s
  | none =>
    let q := s.fld F.HIV_QSEL_QUEUE
    let s := s.setFld F.HIV_QCMD_ERR 0
    if s.poisoned (descAddr q) 16 then descPoison q s
    else
      let s := descRead q s
      let s := { s with hive := { s.hive with flush := some q } }
      (s.setFlag F.HIV_QCMD_FLUSH true).setFlag F.HIV_QCMD_BUSY true

/-- One round of the flush engine: the oldest item of the queue returns to the pool (R304, R306). -/
def flushRound (s : State) : State :=
  match s.hive.flush with
  | none => s
  | some q =>
    let d := s.desc q
    let s := descRead q s
    if s.poisoned (descAddr q) 16 || d.depth == 0 then s
    else freeSlot d.head (unlinkItem q d none d.head s)

/-- The end of a flush: the rounds that are left, and BUSY clears (R306). -/
def flushDone (s : State) : State :=
  match s.hive.flush with
  | none => s
  | some q =>
    let s := if s.poisoned (descAddr q) 16 then descPoison q s
      else forN (s.desc q).depth (fun _ s => flushRound s) (descRead q s)
    let s := { s with hive := { s.hive with flush := none } }
    (s.setFlag F.HIV_QCMD_FLUSH false).setFlag F.HIV_QCMD_BUSY false

/-- HIV_TCMD.WR: the settings of task TSEL. -/
def taskWr (s : State) : State :=
  let t := s.fld F.HIV_TSEL_TASK
  let ht := s.htask t
  hivRefresh (s.setHtask t { ht with
    mask := s.reg64 R.HIV_TMASK_LO
    group := s.fld F.HIV_TCFG_GROUP, aff := s.fld F.HIV_TCFG_AFF, en := s.flag F.HIV_TCFG_EN })

/-- HIV_TCMD.RD -/
def taskRd (s : State) : State :=
  let ht := s.htask (s.fld F.HIV_TSEL_TASK)
  let s := s.setReg R.HIV_TCFG (BitVec.ofNat 32 (ht.group + 256 * ht.aff + 65536 * b2n ht.en))
  (s.setReg64 R.HIV_TMASK_LO ht.mask).setReg64 R.HIV_TFLAG_LO ht.flags

/-- HIV_TCMD.CLRF -/
def taskClrf (s : State) : State :=
  let t := s.fld F.HIV_TSEL_TASK
  hivRefresh (s.setHtask t { s.htask t with flags := 0 })

/-- HIV_AUDIT.SNAP: the four counts at one instant (R309). No operation is in progress between two
commands, so TRANSIT is 0. -/
def hivSnap (s : State) : State :=
  let free := poolSize - s.hive.used.length
  let q := s.hive.queued
  let v := s.hive.svc.length
  let s := (s.setFld F.HIV_AUD_COUNT free).setFld (F.HIV_AUD_COUNT.up 4) q
  let s := (s.setFld (F.HIV_AUD_COUNT.up 8) v).setFld (F.HIV_AUD_COUNT.up 12) 0
  let bal := free + q + v == poolSize
  let s := (s.setFlag F.HIV_AUDIT_DONE true).setFlag F.HIV_AUDIT_BAL bal
  if bal then s else (s.setFlag F.HIV_STAT_MISMATCH true).report 0x20 0

/-- The state of R300: every descriptor 0, every slot free, every task disabled, nothing in
service, and the credits of R313 at 0. The descriptors are written: an injection that is armed for their bank
lands on the first (R377). -/
def hivClear (s : State) : State :=
  let inD := fun (a : Nat) => decide (0x02000000 ≤ a) && decide (a < 0x03000000)
  let s := { s with
    mem := s.mem.filter (fun x => !(inD x.1))
    ecc := { s.ecc with ue := s.ecc.ue.filter (fun w => !(inD (8 * w)))
                        ce := s.ecc.ce.filter (fun w => !(inD (8 * w))) }
    hive := { s.hive with
      used := [], link := [], svc := [], tasks := [], flush := none, init := false, queued := 0
      linkBad := [], stranded := [] } }
  let s := s.consumeInj 0x02000000
  let s := forN 8 (fun n s => s.setHcore n { s.hcore n with credit := [], last := [] }) s
  let s := s.setFld F.HIV_STRAND_ITEMS 0
  let s := (s.setFlag F.HIV_QCMD_FLUSH false).setFlag F.HIV_QCMD_BUSY false
  let s := (s.setFlag F.HIV_CTL_INIT false).setFlag F.HIV_CTL_READY true
  hivRefresh s

/-- HIV_CTL.INIT written 1: operations return DISABLED until the initialisation is done. -/
def hivInit (s : State) : State :=
  let s := { s with hive := { s.hive with init := true } }
  (s.setFlag F.HIV_CTL_INIT true).setFlag F.HIV_CTL_READY false

/-! ### The commands of this unit -/

/-- TAG_RELEASE -/
def execTagRelease (tag : Fin 32768) (s : State) : Host.Outcome State Fault Refusal :=
  .next (hivRelease tag.val s)
/-- HIV_HEV -/
def execHivHev (task : Fin 4096) (flag : Fin 64) (s : State) : Host.Outcome State Fault Refusal :=
  .next (hivSetFlag task.val flag.val s)
/-- QUEUE_WR -/
def execQueueWr (s : State) : Host.Outcome State Fault Refusal := .next (queueWr s)
/-- QUEUE_RD -/
def execQueueRd (s : State) : Host.Outcome State Fault Refusal := .next (queueRd s)
/-- FLUSH -/
def execFlush (s : State) : Host.Outcome State Fault Refusal := .next (flushStart s)
/-- FLUSH_DONE -/
def execFlushDone (s : State) : Host.Outcome State Fault Refusal := .next (flushDone s)
/-- TASK_WR -/
def execTaskWr (s : State) : Host.Outcome State Fault Refusal := .next (taskWr s)
/-- TASK_RD -/
def execTaskRd (s : State) : Host.Outcome State Fault Refusal := .next (taskRd s)
/-- CLRF -/
def execClrf (s : State) : Host.Outcome State Fault Refusal := .next (taskClrf s)
/-- SNAP -/
def execSnap (s : State) : Host.Outcome State Fault Refusal := .next (hivSnap s)
/-- INIT -/
def execInit (s : State) : Host.Outcome State Fault Refusal := .next (hivInit s)
/-- INIT_DONE -/
def execInitDone (s : State) : Host.Outcome State Fault Refusal :=
  .next (if s.hive.init then hivClear s else s)
/-- OFFER -/
def execOffer (n : Core) (s : State) : Host.Outcome State Fault Refusal := .next (hivOffer n.val s)
/-- HIV_TAKE: a read of HIV_TAKEn. -/
def execHivTake (n : Core) (s : State) : Host.Outcome State Fault Refusal :=
  let (w, t) := hivTake n.val s
  .next { t with hst := { t.hst with rdata := w } }
/-- YIELD -/
def execYield (n : Core) (s : State) : Host.Outcome State Fault Refusal := .next (hivYield n.val s)
/-- HIV_GW_WRITE -/
def execHivGwWrite (i : Fin 16) (v : Word) (s : State) : Host.Outcome State Fault Refusal :=
  .next (hivGwWrite i.val v s)

end Sys2Proof.Machine
end

