-- ==== Sys2Proof/Machine/Pwm.lean ====
section
/-!
DEFINITION. The auxiliary PWM outputs (R415 to R419): counters, compare and period starts, syncs
from Firefly events, the fault input and high impedance, bootstrap refresh, and the debug freeze.
-/

namespace Sys2Proof.Machine

/-- One tick of the 400 MHz clock, ps. -/
def pwmTick : Nat := 2500

def pwmUp (n : Nat) (x : Fld) : Fld := x.up (0x10 * n)

/-- The period in force of a write: below 2 acts as 2. -/
def perOf (p : Nat) : Nat := max 2 p

/-- PWM_STAT.FROZEN. -/
def State.pwmFrozen (s : State) : Bool := s.flag F.PWM_STAT_FROZEN

/-- A channel's counter at the present instant. -/
def State.pwmCount (s : State) (n : Nat) : Nat :=
  let p := s.pwmCh n
  if s.pwmFrozen then p.base else (p.base + (s.now - p.baseAt) / pwmTick) % p.per

/-- Whether a channel is active by its counter value: below DUTY (R415). -/
def dutyActive (p : PwmSt) (cnt : Nat) : Bool := decide (cnt < p.duty)

/-- The tick that the present instant lies in, ps (PRESUMED: assumption 221). -/
def State.tickAt (s : State) : Nat := s.now / pwmTick * pwmTick

/-- Since when a channel's output has been active without a break at an instant, by the settings in force:
past a compare it is so only from the present period's start on (R418). -/
def State.activeSince (s : State) (n at_ : Nat) : Option Nat :=
  let p := s.pwmCh n
  let c := if s.pwmFrozen then p.base else p.base + (at_ - p.baseAt) / pwmTick
  let k := c % p.per
  if decide (p.per ≤ p.duty) || decide (c ≤ p.duty) then p.activeFrom
  else if p.per ≤ c ∧ k ≤ p.duty ∧ 0 < p.duty ∧ p.boot.isNone then some (p.baseAt + (c - k - p.base) * pwmTick)
  else none

/-- PER, DUTY and PH loaded in the tick that begins at `at_`, with the counter at a value; a continuously
active time goes on, begins or ends with the output (R415, R416, R418). A channel that does not run stays
inactive. -/
def pwmLoad (n at_ : Nat) (atZero : Bool) (s : State) : State :=
  let p := s.pwmCh n
  let per := perOf (s.fld (pwmUp n F.PWM_PER_PER))
  let ph := s.fld (pwmUp n F.PWM_PH_PH)
  let cnt := if atZero then 0 else ph % per
  let p := { p with per := per, duty := s.fld (pwmUp n F.PWM_DUTY_DUTY), ph := ph
                    base := cnt, baseAt := at_ }
  let from_ := if p.running && dutyActive p cnt && p.boot.isNone then some ((s.activeSince n at_).getD at_) else none
  s.setPwmCh n { p with activeFrom := from_ }

/-- High impedance ends at a period start once its cause is over (R417). -/
def hizEnd (n : Nat) (s : State) : State :=
  let p := s.pwmCh n
  s.setPwmCh n { p with
    hizFlt := p.hizFlt && !p.fltOver, fltOver := false
    hizMts := p.hizMts && s.flag F.MTS_STAT_BLOCK_ALL && s.pwmHiz }

/-- When a channel's counter is next 0: at the start that its EN waits for, or after PER − 1; never while the
counters are frozen. -/
def State.pwmNext (s : State) (n : Nat) : Option Nat :=
  let p := s.pwmCh n
  if s.pwmFrozen then none
  else if p.running then some (p.baseAt + (p.per - p.base) * pwmTick)
  else p.startAt

/-- A period start: settings are loaded, the counter is 0, and Midge takes the event (R415). -/
def pwmPeriodStart (n : Nat) (s : State) : State :=
  match s.pwmNext n with
  | none => s
  | some t =>
    let s := s.reach t
    let p := s.pwmCh n
    let p := if p.running then p else { p with running := true, base := 0, baseAt := t, activeFrom := none }
    hwTrigger 2 n (hizEnd n (pwmLoad n t true (s.setPwmCh n { p with startAt := none })))

/-- Whether a channel's next period start has been reached. -/
def State.pwmDue (s : State) (n : Nat) : Bool :=
  match s.pwmNext n with
  | none => false
  | some t => decide (t ≤ s.now)

/-- The period starts that have been reached are made, with the settings as they stand; those of one channel
raise one event (DESIGN CHOICE: assumption 235). -/
def pwmCatchUp (n : Nat) (s : State) : State :=
  if s.pwmDue n then
    let s := pwmPeriodStart n s
    let p := s.pwmCh n
    let period := p.per * pwmTick
    s.setPwmCh n { p with
      baseAt := p.baseAt + (s.now - p.baseAt) / period * period, activeFrom := s.activeSince n s.now }
  else s

/-- A counter reaches DUTY, 0 < DUTY < PER: the compare event (R415). -/
def pwmCompare (n : Nat) (s : State) : State :=
  let p := s.pwmCh n
  if p.running && !s.pwmFrozen && decide (p.base < p.duty) && decide (p.duty < p.per) then
    let t := p.baseAt + (p.duty - p.base) * pwmTick
    let s := s.reach t
    hwTrigger 3 n (s.setPwmCh n { p with base := p.duty, baseAt := t, activeFrom := none })
  else s

/-- The channels that a Firefly event syncs (R416), enabled or not: a period-start event only when PH is 0, as
a PH that is a multiple of PER is (Table 17.12) (DEDUCED: assumption 230). -/
def pwmSync (ev : Nat) (s : State) : State :=
  if s.pwmFrozen then s
  else forN 12 (fun n s =>
    if s.flag (pwmUp n F.PWM_CFG_SYNC_EN) && s.fld (pwmUp n F.PWM_CFG_SYNC_EV) == ev then
      let s := pwmLoad n s.tickAt false s
      if (s.pwmCh n).base == 0 then hwTrigger 2 n (hizEnd n s) else s
    else s) s

/-- Enabled channels start with the next tick, disabled ones stop (R415), but not while the counters are
frozen (R419); called after PWM_CTL is written and after a freeze. -/
def pwmEnable (s : State) : State :=
  if s.pwmFrozen then s
  else forN 12 (fun n s =>
    let p := s.pwmCh n
    let en := s.flagBit F.PWM_CTL_EN n
    if en then
      (if p.running || p.startAt.isSome then s
       else s.setPwmCh n { p with startAt := some (s.tickAt + pwmTick) })
    else s.setPwmCh n { p with running := false, startAt := none, activeFrom := none }) s

/-- Whether a debug halt freezes the counters: FRZ_DBG is set and a core of DBG_CORES is halted (R419). -/
def State.pwmHalts (s : State) : Bool :=
  s.flag F.PWM_CTL_FRZ_DBG &&
    (List.range 8).any (fun n => s.flagBit F.PWM_CTL_DBG_CORES n && (s.core n).halted)

/-- Whether the counters stop: by a debug halt, or because the PLL's outputs are gated (R238). -/
def State.pwmStops (s : State) : Bool := s.pwmHalts || s.flag F.FFY_STAT_GATED

/-- Whether a channel is at high impedance. -/
def PwmSt.hiz (p : PwmSt) : Bool := p.hizFlt || p.hizMts || p.hizPwr

/-- Whether a channel's output is active, by its counter (R415, R418). -/
def State.pwmActive (s : State) (n : Nat) : Bool :=
  let p := s.pwmCh n
  p.running && dutyActive p (s.pwmCount n) && p.boot.isNone

/-- The level that a channel drives: the inactive one while the outputs are gated (R238), through a freeze
the one it held as it began (R415, R418, R419). -/
def State.pwmLevel (s : State) (n : Nat) : Bool :=
  let pol := s.flag (pwmUp n F.PWM_CFG_POL)
  if s.flag F.FFY_STAT_GATED then pol else (s.pwmCh n).held.getD (s.pwmActive n != pol)

/-- PWM_OUTn: none at high impedance, else its level (R417). -/
def State.pwmOut (s : State) (n : Nat) : Option Bool :=
  if (s.pwmCh n).hiz then none else some (s.pwmLevel n)

/-- The counters stop where they stand and the outputs hold their levels, or both go on from there; called
after anything R419 or R238 names has changed. -/
def pwmRefreeze (s : State) : State :=
  let f := s.pwmStops
  if f == s.pwmFrozen then s
  else
    let s := forN 12 (fun n s => s.setPwmCh n { s.pwmCh n with
      base := s.pwmCount n, baseAt := s.tickAt, startAt := none
      activeFrom := if s.pwmActive n && !(s.flag F.FFY_STAT_GATED) then s.activeSince n s.now else none
      held := if f then some (s.pwmLevel n) else none }) s
    pwmEnable (s.setFlag F.PWM_STAT_FROZEN f)

/-- The outputs become idle as they are gated, and active again as they are released (R238): a continuously
active time ends, or begins (R418). -/
def pwmGate (s : State) : State :=
  pwmRefreeze (forN 12 (fun n s =>
    s.setPwmCh n { s.pwmCh n with
      activeFrom := if !(s.flag F.FFY_STAT_GATED) && s.pwmActive n then some s.now else none }) s)

/-- PWM_STAT as it reads: HIZ follows the channels (R417), and FROZEN is the freeze of R419. -/
def State.pwmStat (s : State) : Word :=
  let w := putBits (s.reg R.PWM_STAT) F.PWM_STAT_FROZEN.lo 1 (if s.pwmHalts then 1 else 0)
  (List.range 12).foldl (fun w n => putBits w n 1 (if (s.pwmCh n).hiz then 1 else 0)) w

/-- PWM_FLT_N falls: PIN shows it at once, the fault follows the filter time (R417). -/
def State.pwmFalls (s : State) : State :=
  { s.setFlag F.PWM_FLT_PIN false with pwm := { s.pwm with fltLow := false } }

/-- PWM_FLT_N low for the filter time, or high again (R417). -/
def pwmFlt (low : Bool) (s : State) : State :=
  if low && s.pwm.fltLow then s
  else if low then
    let s := { s.setFlag F.PWM_FLT_PIN false with pwm := { s.pwm with fltLow := true } }
    let en := s.fld F.PWM_FLT_FLT_EN
    let s := s.setFlag F.PWM_FLT_FLT true
    let s := forN 12 (fun n s =>
      if en.testBit n then s.setPwmCh n { s.pwmCh n with hizFlt := true, fltOver := false } else s) s
    (s.vector 15).report 0x2C (((List.range 12).find? en.testBit).getD 0)
  else { s.setFlag F.PWM_FLT_PIN true with pwm := { s.pwm with fltLow := false } }

/-- BOOT_T and OFF of the bootstrap refresh, ps (Table 17.12). -/
def State.bootT (s : State) : Nat := max 1 (min 100 (s.fld F.PWM_BOOT_BOOT_T)) * 100 * psUs
def State.bootOff (s : State) : Nat := max 20 (min 200 (s.fld F.PWM_BOOT_OFF)) * 10 * psNs

/-- Whether a channel that is active stays so until an instant: no compare lies before it, and the settings
that a period start before it loads keep the output active (R418). -/
def State.staysActive (s : State) (n t : Nat) : Bool :=
  let p := s.pwmCh n
  let start := p.baseAt + (p.per - p.base) * pwmTick
  let duty := s.fld (pwmUp n F.PWM_DUTY_DUTY)
  (decide (p.per ≤ p.duty) || decide (t ≤ p.baseAt + (p.duty - p.base) * pwmTick)) &&
    (decide (t ≤ start) || decide (perOf (s.fld (pwmUp n F.PWM_PER_PER)) ≤ duty) ||
      decide (t ≤ start + duty * pwmTick))

/-- When a channel's bootstrap pulse begins, none when it gets none (R418). -/
def State.refreshAt (s : State) (n : Nat) : Option Nat :=
  let p := s.pwmCh n
  match p.activeFrom with
  | none => none
  | some t =>
    if s.flag (pwmUp n F.PWM_CFG_BOOT_EN) && !s.pwmFrozen && p.boot.isNone && s.staysActive n (t + s.bootT) then
      some (t + s.bootT)
    else none

/-- A bootstrap pulse begins (R418). -/
def bootRefresh (n : Nat) (s : State) : State :=
  match s.refreshAt n with
  | none => s
  | some t =>
    let s := s.reach t
    s.setPwmCh n { s.pwmCh n with boot := some s.now, activeFrom := none }

/-- A bootstrap pulse ends: the output resumes and its continuous time restarts. -/
def bootRefreshEnd (n : Nat) (s : State) : State :=
  let p := s.pwmCh n
  match p.boot, s.pwmFrozen with
  | some t, false =>
    let s := s.reach (t + s.bootOff)
    let on := p.running && dutyActive p (s.pwmCount n)
    s.setPwmCh n { p with boot := none, activeFrom := if on then some s.now else none }
  | _, _ => s

/-! ### The commands of this unit -/

/-- PWM_PERIOD_START -/
def execPwmPeriodStart (ch : Fin 12) (s : State) : Host.Outcome State Fault Refusal :=
  .next (pwmPeriodStart ch.val s)
/-- PWM_COMPARE -/
def execPwmCompare (ch : Fin 12) (s : State) : Host.Outcome State Fault Refusal :=
  .next (pwmCompare ch.val s)
/-- PWM_FLT -/
def execPwmFlt (low : Bool) (s : State) : Host.Outcome State Fault Refusal := .next (pwmFlt low s)
/-- BOOT_REFRESH -/
def execBootRefresh (ch : Fin 12) (s : State) : Host.Outcome State Fault Refusal :=
  .next (bootRefresh ch.val s)
/-- BOOTSTRAP_REFRESH_END -/
def execBootstrapRefreshEnd (ch : Fin 12) (s : State) : Host.Outcome State Fault Refusal :=
  .next (bootRefreshEnd ch.val s)

end Sys2Proof.Machine
end

