-- ==== Sys2Proof/Machine/Firefly.lean ====
section
/-!
DEFINITION. Firefly (R233 to R250): steps and rate, the tracked domains, the transmit time-stamp
queue, events, capture and PPS. Relock stands with the lanes, which it takes down.
-/

namespace Sys2Proof.Machine

/-! ### Rate (R235, R236, R245) -/

/-- A signed 32-bit register. -/
def State.regS (s : State) (a : Nat) : Int := (s.reg a).toInt

/-- The largest rate, 200 ppm in units of 2⁻⁴⁰. -/
def rateLimit : Int := 219902325

/-- FFY_STAT.SLEWING follows the two rates. -/
def slewing (s : State) : State :=
  s.setFlag F.FFY_STAT_SLEWING (s.reg R.FFY_RATE_ACT != s.reg R.FFY_RATE)

/-- A write of FFY_RATE: beyond ±200 ppm it is clamped and RANGE is set. -/
def rateWrite (v : Word) (s : State) : State :=
  let x := v.toInt
  let y := max (-rateLimit) (min rateLimit x)
  let s := s.setReg R.FFY_RATE (BitVec.ofInt 32 y)
  slewing (if x = y then s else s.setFlag F.FFY_STAT_RANGE true)

/-- One move of RATE_ACT toward RATE. -/
def rateStep (act target : Int) : Int :=
  if act < target then min target (act + 55) else max target (act - 55)

/-- Each microsecond RATE_ACT moves toward RATE by at most 55 units; in holdover it is held. -/
def rateSlew (s : State) : State :=
  if s.reg R.FFY_RATE_ACT = s.reg R.FFY_RATE || s.flag F.FFY_STAT_HOLDOVER then s
  else
    let s := s.reach (s.ffy.slewAt + psUs)
    let s := { s with ffy := { s.ffy with slewAt := s.now } }
    slewing (s.setReg R.FFY_RATE_ACT
      (BitVec.ofInt 32 (rateStep (s.regS R.FFY_RATE_ACT) (s.regS R.FFY_RATE))))

/-! ### Domains (R242 to R245) -/

/-- Both domains are tracked with GROUP_N at 16 or below; PTP must be enabled on a port. -/
def State.ptpOn (s : State) : Bool := s.fld F.FFY_PTP_PTP_EN != 0
def State.tracksB (s : State) : Bool := decide (s.fld F.FFY_PTP_GROUP_N ≤ 16)
def State.tracked (s : State) (b : Bool) : Bool := s.ptpOn && (!b || s.tracksB)

/-- FFY_STAT as it reads: DUAL follows the settings (R242). -/
def State.ffyStat (s : State) : Word :=
  putBits (s.reg R.FFY_STAT) F.FFY_STAT_DUAL.lo 1 (if s.ptpOn && s.tracksB then 1 else 0)

def domValid (b : Bool) : Fld := if b then F.FFY_STAT_VALID_B else F.FFY_STAT_VALID_A

def State.dom (s : State) (b : Bool) : DomSt := if b then s.ffy.domB else s.ffy.domA
def State.setDom (s : State) (b : Bool) (d : DomSt) : State :=
  { s with ffy := if b then { s.ffy with domB := d } else { s.ffy with domA := d } }

/-- SYNC_TO: below 2 acts as 2. -/
def State.syncTo (s : State) : Nat := max 2 (s.fld F.FFY_PTP_SYNC_TO)

/-- A sync interval of 2^(k − 4) s, ps. -/
def syncInterval (k : Nat) : Nat := 1000 * psMs / 2 ^ (4 - k)

/-- How many peers of a domain the table of R242 holds entries for. -/
def State.peerCount (s : State) (b : Bool) : Nat := (s.ffy.peers.filter (fun x => x.1 == b)).length

/-- A Sync or peer-delay message of a clock: in a tracked domain it takes an entry of the 32, one per
peer and GROUP_N at most; without one it is passed on with no matching (R242). -/
def peerRx (b : Bool) (p : BitVec 80) (s : State) : State :=
  if s.tracked b && !(s.ffy.peers.contains (b, p)) && decide (s.peerCount b < s.fld F.FFY_PTP_GROUP_N) &&
      decide (s.ffy.peers.length < 32) then
    { s with ffy := { s.ffy with peers := s.ffy.peers ++ [(b, p)] } }
  else s

/-- After a write of FFY_PTP: entries of a domain no longer tracked, and those past GROUP_N, go. -/
def peerTrim (s : State) : State :=
  let keep := fun b => if s.tracked b then
    (s.ffy.peers.filter (fun x => x.1 == b)).take (s.fld F.FFY_PTP_GROUP_N) else []
  { s with ffy := { s.ffy with peers := keep false ++ keep true } }

/-- A domain becomes valid: it is selected if no valid one is, and ends a holdover (R245). -/
def domBecomesValid (b : Bool) (s : State) : State :=
  let other := s.flag (domValid !b)
  let s := s.setFlag (domValid b) true
  if other then s
  else slewing ((s.setFlag F.FFY_STAT_DOM_SEL b).setFlag F.FFY_STAT_HOLDOVER false)

/-- A Sync of a tracked domain, from clock `p`: three in succession, each in time, make it valid (R243). -/
def syncRx (b : Bool) (p : BitVec 80) (k : Nat) (s : State) : State :=
  if s.tracked b then
    let s := peerRx b p s
    let d := s.dom b
    let inTime := decide (0 < d.run) && decide (s.now ≤ d.last + s.syncTo * syncInterval k)
    let run := if inTime then min 3 (d.run + 1) else 1
    let s := s.setDom b { run := run, last := s.now, interval := syncInterval k }
    if run == 3 && !(s.flag (domValid b)) then domBecomesValid b s else s
  else s

/-- A domain becomes invalid: a switch to the other when that one is tracked and valid, or holdover,
told once, when none is (R244, R245). -/
def domInvalid (b : Bool) (s : State) : State :=
  let s := s.setDom b { s.dom b with run := 0 }
  if s.flag (domValid b) then
    let s := s.setFlag (domValid b) false
    if s.flag (domValid !b) && s.tracked (!b) then
      if s.flag F.FFY_STAT_DOM_SEL == b then
        let s := (s.setFlag F.FFY_STAT_DOM_SEL !b).setFlag F.FFY_STAT_DOM_SW true
        s.report 0x18 (if b then 0 else 1)
      else s
    else if s.flag F.FFY_STAT_HOLDOVER then s
    else (s.setFlag F.FFY_STAT_HOLDOVER true).report 0x19 0
  else s

/-- SYNC_TO intervals have passed without a Sync of the domain (R243). -/
def syncTimeout (b : Bool) (s : State) : State :=
  let d := s.dom b
  if s.flag (domValid b) then domInvalid b (s.reach (d.last + s.syncTo * d.interval)) else s

/-! ### The transmit time-stamp queue (R241) -/

/-- The oldest stamp of a message sent enters the queue, or is discarded when 8 are queued. -/
def txtsArrive (s : State) : State :=
  match s.ffy.stamps with
  | [] => s
  | x :: r =>
    let s := { s with ffy := { s.ffy with stamps := r } }
    if decide (8 ≤ s.ffy.txq.length) then
      (s.setFlag F.FFY_STAT_TXTS_OVF true).bump F.FFY_TXTS_HDR_LOST 1
    else
      let s := if s.ffy.txq.isEmpty then s.vector 20 else s
      { s with ffy := { s.ffy with txq := s.ffy.txq ++ [x] } }

/-- A read of FFY_TXTS_HDR removes the oldest entry. -/
def txtsHdrRead (s : State) : State :=
  match s.ffy.txq with
  | [] => s.setFlag F.FFY_TXTS_HDR_VALID false
  | x :: r =>
    let s := { s with ffy := { s.ffy with txq := r } }
    let s := (s.setFld F.FFY_TXTS_HDR_SEQID x.seqId).setFld F.FFY_TXTS_HDR_MSGTYPE x.msgType
    let s := (s.setFlag F.FFY_TXTS_HDR_PORT x.port).setFlag F.FFY_TXTS_HDR_DOMIDX x.domB
    let s := s.setFlag F.FFY_TXTS_HDR_VALID true
    s.setReg64 R.FFY_TXTS_LO (BitVec.ofNat 64 x.time)

/-! ### Events (R246, R247) -/

def evUp (n : Nat) (x : Fld) : Fld := x.up (0x10 * n)
def evT (n : Nat) : Nat := R.FFY_EV_T + 0x10 * n

/-- The signed difference of R246. -/
def State.evDiff (s : State) (n : Nat) : Int := sdiff s.shortTime (s.reg (evT n))

/-- PER_NS as it acts: 0, or 1,000 to 2,147,483,647. -/
def evPeriod (p : Nat) : Nat := if p = 0 then 0 else max 1000 (min 2147483647 p)

/-- The advance of T after a firing, or the end of a single event (R247). -/
def evAdvance (n : Nat) (s : State) : State :=
  let per := evPeriod (s.reg (R.FFY_EV_PER + 0x10 * n)).toNat
  if per = 0 then s.setFlag (evUp n F.FFY_EV_CTL_EN) false
  else
    let k := (s.evDiff n).toNat / per + 1
    let s := s.setReg (evT n) (s.reg (evT n) + BitVec.ofNat 32 (k * per))
    s.bump (evUp n F.FFY_EV_CTL_MISSED) (k - 1)

/-- The effects of a firing (R246; event 0 is capture source 7), then the advance. -/
def evFire (n : Nat) (s : State) : State :=
  let s := if n = 0 then s.captureSrc 7 else s
  let s := hwTrigger 4 n s
  let s := if n = s.fld F.MTH_TSRC_EVSEL then s.mothFire 4 else s
  let s := if s.flag (evUp n F.FFY_EV_CTL_PWM_SYNC) then pwmSync n s else s
  let s := if s.flag (evUp n F.FFY_EV_CTL_HIVE) then
      hivSetFlag (s.fld (evUp n F.FFY_EV_CTL_TASK)) (s.fld (evUp n F.FFY_EV_CTL_FLAG)) s else s
  evAdvance n s

/-- An armed event reaches T. -/
def eventFire (n : Nat) (s : State) : State :=
  if s.flag (evUp n F.FFY_EV_CTL_EN) then
    let d := s.evDiff n
    let ahead := (-d).toNat * psNs - (s.ffyPs % 1000).toNat
    evFire n (if d < 0 then s.reach (s.now + ahead) else s)
  else s

/-- An event that is enabled, written or stepped past with T not ahead fires at once and sets LATE (R247). A
step that lands exactly on T sets it too (DESIGN CHOICE: assumption 295). -/
def evLate (n : Nat) (s : State) : State :=
  if s.flag (evUp n F.FFY_EV_CTL_EN) && decide (0 ≤ s.evDiff n) then
    evFire n (s.setFlag (evUp n F.FFY_EV_CTL_LATE) true)
  else s

/-- A write of FFY_EVn_T. -/
def evTWrite (n : Nat) (v : Word) (s : State) : State := evLate n (s.setReg (evT n) v)

/-- FFY_EVn_CTL.EN set. -/
def evEnable (n : Nat) (s : State) : State :=
  if s.flag (evUp n F.FFY_EV_CTL_EN) then s
  else evLate n (s.setFlag (evUp n F.FFY_EV_CTL_EN) true)

/-- FFY_CTL.STEP written 1 (R237, R35): Firefly time moves by FFY_STEP, and events left in the past
fire at once. -/
def timebaseStep (s : State) : State :=
  if s.quiet && !s.running then
    let d := (s.reg64 R.FFY_STEP_LO).toInt
    forN 16 evLate { s with ffy := { s.ffy with offset := s.ffy.offset + d } }
  else s.rejWrite R.FFY_CTL

/-! ### PPS (R249) -/

/-- PPS_OUT rises at the next whole second of Firefly time. -/
def ppsRise (s : State) : State :=
  if s.flag F.FFY_CTL_PPS_EN && !(s.flag F.FFY_STAT_GATED) && !s.ffy.pps then
    let past := (s.ffyPs % (1000 * psMs : Nat)).toNat
    let s := if past = 0 then s else s.reach (s.now + (1000 * psMs - past))
    { s with ffy := { s.ffy with
        pps := true, ppsFall := s.now + max 1 (s.fld F.FFY_CTL_PPS_W) * psMs } }
  else s

/-- PPS_OUT falls after PPS_W ms. -/
def ppsFall (s : State) : State :=
  if s.ffy.pps then
    let s := s.reach s.ffy.ppsFall
    { s with ffy := { s.ffy with pps := false } }
  else s

/-! ### The commands of this unit -/

/-- TIMEBASE_STEP -/
def execTimebaseStep (src : Src) (s : State) : Host.Outcome State Fault Refusal :=
  match src with
  | _ => .next (timebaseStep s)
/-- RATE_WRITE -/
def execRateWrite (v : Word) (s : State) : Host.Outcome State Fault Refusal := .next (rateWrite v s)
/-- RATE_SLEW -/
def execRateSlew (s : State) : Host.Outcome State Fault Refusal := .next (rateSlew s)
/-- SYNC_RX -/
def execSyncRx (domB : Bool) (peer : BitVec 80) (interval : Fin 5) (s : State) :
    Host.Outcome State Fault Refusal := .next (syncRx domB peer interval.val s)
/-- SYNC_TIMEOUT -/
def execSyncTimeout (domB : Bool) (s : State) : Host.Outcome State Fault Refusal :=
  .next (syncTimeout domB s)
/-- INV_A -/
def execInvA (s : State) : Host.Outcome State Fault Refusal := .next (domInvalid false s)
/-- INV_B -/
def execInvB (s : State) : Host.Outcome State Fault Refusal := .next (domInvalid true s)
/-- TXTS_ARRIVE -/
def execTxtsArrive (s : State) : Host.Outcome State Fault Refusal := .next (txtsArrive s)
/-- TXTS_HDR_READ -/
def execTxtsHdrRead (s : State) : Host.Outcome State Fault Refusal :=
  let s := txtsHdrRead s
  .next { s with hst := { s.hst with rdata := s.reg R.FFY_TXTS_HDR } }
/-- EVENT_FIRE -/
def execEventFire (n : Fin 16) (s : State) : Host.Outcome State Fault Refusal :=
  .next (eventFire n.val s)
/-- EV_T_WRITE -/
def execEvTWrite (n : Fin 16) (v : Word) (s : State) : Host.Outcome State Fault Refusal :=
  .next (evTWrite n.val v s)
/-- EV_ENABLE -/
def execEvEnable (n : Fin 16) (s : State) : Host.Outcome State Fault Refusal :=
  .next (evEnable n.val s)
/-- CAPTURE: an edge at a contact, source 0, 1 or 2 of Table 9.2; the command whose effect is one of
the other sources latches it itself. -/
def execCapture (src : Fin 3) (s : State) : Host.Outcome State Fault Refusal :=
  .next ((if src.val = 2 then s.pwmFalls else s).captureSrc src.val)
/-- PPS_RISE -/
def execPpsRise (s : State) : Host.Outcome State Fault Refusal := .next (ppsRise s)
/-- PPS_FALL -/
def execPpsFall (s : State) : Host.Outcome State Fault Refusal := .next (ppsFall s)

end Sys2Proof.Machine
end

