-- ==== Sys2Proof/Machine/CoreBase.lean ====
section
/-!
DEFINITION. The cores' general and system registers, start and stop, and the entry to a handler
(R252, R253, R259 to R263). Core 8 is BS.
-/

namespace Sys2Proof.Machine

/-- BS among the cores. -/
def coreBs : Nat := 8

/-- A core that executes instructions. -/
def CoreSt.live (c : CoreSt) : Bool := c.run && !c.halted && !c.nested

/-- A general register; g0 reads 0 and discards writes (R252). -/
def CoreSt.greg (c : CoreSt) (r : Nat) : Word := if r = 0 then 0 else tget (fun _ => 0) c.g r
def CoreSt.setG (c : CoreSt) (r : Nat) (v : Word) : CoreSt :=
  if r = 0 then c else { c with g := tset (fun _ => 0) r v c.g }

/-! STATUS (Table 10.2) -/
def stIE : Nat := 0
def stPIE : Nat := 1
def stXACT : Nat := 2
def stQSAT : Nat := 3
def CoreSt.st (c : CoreSt) (b : Nat) : Bool := c.status.getLsbD b
def CoreSt.setSt (c : CoreSt) (b : Nat) (v : Bool) : CoreSt :=
  { c with status := putBits c.status b 1 (if v then 1 else 0) }

/-! Cause codes (Table 10.9) -/
def exIllegal : Nat := 1
def exAlign : Nat := 2
def exAccess : Nat := 3
def exPoisonI : Nat := 4
def exPoisonD : Nat := 5
def exTrap : Nat := 6
def exBrk : Nat := 7

/-- The steps of R260 at a core's present PC. -/
def CoreSt.entry (c : CoreSt) (int : Bool) (code : Nat) (eval : Word) : CoreSt :=
  let c := { c with
    epc := c.pc, cause := BitVec.ofNat 32 (code + (if int then 2 ^ 31 else 0)), eval := eval
    resv := none, wait := .none, pc := if int then c.xbase + 0x80 else c.xbase }
  ((c.setSt stPIE (c.st stIE)).setSt stIE false).setSt stXACT true

/-- An exception while XACT is 1 halts the core (R263). -/
def State.nestHalt (s : State) (n : Nat) : State :=
  let s := s.setCore n { s.core n with nested := true, wait := .none }
  let s := if n < 8 then s.setFlagBit F.BTL_STAT_NEST n true else s
  let s := s.report 0x1A n
  if n = coreBs then bsHalted s else s

/-- An exception of the instruction at the PC (R259, R260, R263). -/
def State.raise (s : State) (n code : Nat) (eval : Word) : State :=
  if (s.core n).st stXACT then s.nestHalt n
  else s.setCore n ((s.core n).entry false code eval)

/-- Interrupts pending and enabled. -/
def CoreSt.intrs (c : CoreSt) : Nat := bitsOf (c.ipend &&& c.ien) 0 8

/-- A COMMIT that waits for its admission point is not interrupted (R259, R262). -/
def Wait.interruptible : Wait → Bool
  | .commit _ _ => false
  | _ => true

/-- An interrupt taken (R262): the lowest pending enabled one. -/
def interrupt (n : Nat) (s : State) : State :=
  let c := s.core n
  if c.live && c.st stIE && !(c.st stXACT) && c.intrs != 0 && c.wait.interruptible then
    let bit := ((List.range 8).find? (fun b => c.intrs.testBit b)).getD 0
    s.setCore n (c.entry true (0x10 + bit) 0)
  else s

def execInterrupt (n : AnyCore) (s : State) : Host.Outcome State Fault Refusal :=
  .next (interrupt n.val s)

/-- The core goes on after its instruction. -/
def CoreSt.advance (c : CoreSt) : CoreSt := { c with pc := c.pc + 4, wait := .none }

/-- WFI ends when an enabled interrupt is pending (Table 10.7). -/
def wfiWake (n : Nat) (s : State) : State :=
  let c := s.core n
  if c.live && c.wait == Wait.wfi && c.intrs != 0 then s.setCore n c.advance else s

def execWfiWake (n : AnyCore) (s : State) : Host.Outcome State Fault Refusal := .next (wfiWake n.val s)

/-! ### Start and stop (R253) -/

def State.boot (s : State) (n : Nat) : Word := s.reg (R.BTL_BOOT + 0x20 * n) &&& 0xFFFFFFFC

/-- The core starts: every register is 0, the store buffer empty, no reservation. Hive sets IPEND bit 0
again while the core holds an offer (R253, R263, R312). A core that was halted is so no more, which may end a
freeze of the PWM outputs (R419). -/
def coreStart (n : Nat) (s : State) : State :=
  let was := (s.core n).halted
  let s := s.setCore n { run := true, pc := (s.core n).bootAt, haltReq := (s.core n).haltReq
                         ipend := if (s.hcore n).offer.isSome then 1 else 0 }
  if was then pwmRefreeze s else s

/-- A core that waits to start does so once no store from before is left. -/
def startDrained (n : Nat) (s : State) : State :=
  if (s.core n).startDue && (s.core n).sb.isEmpty then coreStart n s else s

/-- RUN goes to 1: the core is to start at BTL_BOOTn. -/
def coreRun (n : Nat) (s : State) : State :=
  if s.flagBit F.BTL_CTL_RUN n then s
  else (s.setFlagBit F.BTL_CTL_RUN n true).setCore n { s.core n with
    pc := s.boot n, bootAt := s.boot n, startDue := true }

/-- What a command does, and the start of core n when the command has set its RUN. -/
def startedBy (n : Nat) (f : State → State) (s : State) : State :=
  let t := f s
  if !(s.flagBit F.BTL_CTL_RUN n) && t.flagBit F.BTL_CTL_RUN n then startDrained n t else t

/-- RUN goes to 0: the core stops; its stores drain. -/
def coreStop (n : Nat) (s : State) : State :=
  if s.flagBit F.BTL_CTL_RUN n then
    (s.setFlagBit F.BTL_CTL_RUN n false).setCore n { s.core n with
      run := false, startDue := false, wait := .none }
  else s

/-! ### Debug halt (R282) -/

/-- BTL_HALT.HALT: the halt waits for the core's next boundary. -/
def halt (n : Nat) (s : State) : State :=
  if (s.core n).halted then s else s.setCore n { s.core n with haltReq := true }

def execHalt (n : Core) (s : State) : Host.Outcome State Fault Refusal := .next (halt n.val s)

/-- BTL_HALT.HALTED and BTL_PC as read: a core that R282 or R263 has halted. -/
def CoreSt.stopped (c : CoreSt) : Bool := c.halted || c.nested
def State.haltedWord (s : State) : Word :=
  BitVec.ofNat 32 ((List.range 8).foldl (fun a n =>
    let c := s.core n
    (if c.stopped then a + 2 ^ (16 + n) else a) + (if c.haltReq then 2 ^ n else 0)) 0)
def State.btlPc (s : State) (n : Nat) : Word := if (s.core n).stopped then (s.core n).pc else 0

/-- BTL_GDATA (Table 10.16). -/
def State.gsel (s : State) (n : Nat) : Nat := s.fld (F.BTL_GSEL_REG.up (0x20 * n))
def State.gdata (s : State) (n : Nat) : Word :=
  if (s.core n).stopped then (s.core n).greg (s.gsel n) else 0
def gdataWrite (n : Nat) (v : Word) (s : State) : State :=
  if (s.core n).stopped then s.setCore n ((s.core n).setG (s.gsel n) v) else s

/-- IPEND bit `b` on every core named in a mask (SIGNAL, the doorbell). -/
def State.ipendAll (s : State) (mask b : Nat) : State :=
  forN 8 (fun n s => if mask.testBit n then s.ipend n b else s) s

end Sys2Proof.Machine
end

