-- ==== Sys2Proof/Machine/Ecc.lean ====
section
/-!
DEFINITION. A masked write into one 8-byte ECC word, as the host window and the cores' store buffers
make it (R269, R403).
-/

namespace Sys2Proof.Machine

/-- The bytes a mask of eight selects. -/
def maskBytes (be : BitVec 8) : List Nat := (List.range 8).filter (fun i => be.getLsbD i)

/-- The selected bytes of an ECC word written: a part of a word is merged into it, which reads it. -/
def State.eccMerge (s : State) (a : Nat) (be : BitVec 8) (d : BitVec 64) : State :=
  let s := if be = 0xFF then s.clearPoison a 8 else s.correct a 8
  let s := forL (maskBytes be) (fun i s =>
    (s.wrBytes (a + i) [d.extractLsb' (8 * i) 8]).loseResv (a + i) 1) s
  forN 6 (fun arm s => s.touchTable a 8 arm) (s.consumeInj a)

/-- A write into the ECC word at `a` (a multiple of 8). A part of a poisoned word is not written:
BTL_WR_POISON with a DETAIL; it ends a reservation all the same (R268, R269). The retention SRAM takes nothing while its fence is closed (R386). -/
def State.eccWrite (s : State) (a : Nat) (be : BitVec 8) (d : BitVec 64) (detail : Nat) : State :=
  if be = 0 ∨ (s.mod.fence ∧ 0x08000000 ≤ a) then s
  else if be ≠ 0xFF ∧ s.poisoned a 8 then
    forL (maskBytes be) (fun i s => s.loseResv (a + i) 1) (s.report 0x1B detail)
  else s.eccMerge a be d

end Sys2Proof.Machine
end

