-- ==== Sys2Proof/Machine/Inflate.lean ====
section
/-!
DEFINITION. RFC 1951 (R326, R327): the decoder of a DEFLATE stream, over its bits in stream order,
and the stored blocks of an encoder.
-/

namespace Sys2Proof.Machine

/-- The bits of a number, least significant first: the order in which DEFLATE packs them. -/
def bitsLsb : Nat → Nat → List Bool
  | 0, _ => []
  | n + 1, x => (x % 2 == 1) :: bitsLsb n (x / 2)

/-- The bits of bytes in stream order. -/
def streamBits (l : List Byte) : List Bool := l.flatMap (fun b => bitsLsb 8 b.toNat)

/-- The number the bits stand for, least significant first. -/
def bitsNum : List Bool → Nat
  | [] => 0
  | b :: r => (if b then 1 else 0) + 2 * bitsNum r

/-- Why decoding stops (Table 13.7): FORMAT, TRUNCATED. -/
def infFormat : Nat := 2
def infTruncated : Nat := 4

/-- A field of `n` bits. -/
def takeBits (n : Nat) (l : List Bool) : Except Nat (Nat × List Bool) :=
  if l.length < n then .error infTruncated else .ok (bitsNum (l.take n), l.drop n)

/-- A Huffman code: how many symbols have each length 1 to 15, and the symbols in code order. -/
structure Huff where
  counts : List Nat
  syms : List Nat
  deriving DecidableEq, Repr

/-- The canonical code of a list of code lengths. -/
def huffOf (lens : List Nat) : Huff where
  counts := (List.range 15).map (fun k => (lens.filter (fun x => x == k + 1)).length)
  syms := (List.range 15).flatMap (fun k =>
    (List.range lens.length).filter (fun i => lens.getD i 0 == k + 1))

/-- Code space left over: `none` when the lengths ask for more than there is. -/
def huffLeft : List Nat → Nat → Option Nat
  | [], left => some left
  | c :: r, left => if 2 * left < c then none else huffLeft r (2 * left - c)

/-- Whether the lengths make a usable code: complete, or, where `one` is allowed, a single symbol of
one bit or none at all. -/
def huffOk (one : Bool) (lens : List Nat) : Bool :=
  match huffLeft (huffOf lens).counts 1 with
  | none => false
  | some 0 => true
  | some _ => one && (lens.filter (fun x => x != 0)).all (fun x => x == 1)

/-- One symbol: the code grows bit by bit until it names one. -/
def huffGo (syms : List Nat) : List Nat → Nat → Nat → Nat → List Bool → Except Nat (Nat × List Bool)
  | [], _, _, _, _ => .error infFormat
  | _ :: _, _, _, _, [] => .error infTruncated
  | c :: r, code, first, index, b :: bits =>
    let code := code + (if b then 1 else 0)
    if code < first + c then .ok (syms.getD (index + (code - first)) 0, bits)
    else huffGo syms r (2 * code) (2 * (first + c)) (index + c) bits

def Huff.symbol (h : Huff) (bits : List Bool) : Except Nat (Nat × List Bool) :=
  huffGo h.syms h.counts 0 0 0 bits

/-- Base and extra bits of length symbols 257 to 285 and of distance symbols 0 to 29. -/
def lenBase : List Nat :=
  [3, 4, 5, 6, 7, 8, 9, 10, 11, 13, 15, 17, 19, 23, 27, 31, 35, 43, 51, 59, 67, 83, 99, 115, 131, 163,
    195, 227, 258]
def lenExtra : List Nat :=
  [0, 0, 0, 0, 0, 0, 0, 0, 1, 1, 1, 1, 2, 2, 2, 2, 3, 3, 3, 3, 4, 4, 4, 4, 5, 5, 5, 5, 0]
def distBase : List Nat :=
  [1, 2, 3, 4, 5, 7, 9, 13, 17, 25, 33, 49, 65, 97, 129, 193, 257, 385, 513, 769, 1025, 1537, 2049,
    3073, 4097, 6145, 8193, 12289, 16385, 24577]
def distExtra (k : Nat) : Nat := if k < 4 then 0 else k / 2 - 1

/-- A copy of `n` bytes from distance `d`, byte by byte, onto output held newest first. -/
def copyBack (d : Nat) : Nat → List Byte → List Byte
  | 0, out => out
  | n + 1, out => copyBack d n (out.getD (d - 1) 0 :: out)

/-- How decoding stands: the bits not yet read, the output newest first, and why it stopped. -/
structure Inf where
  bits : List Bool
  out : List Byte
  err : Option Nat := none
  deriving DecidableEq, Repr

/-- The length and distance that follow a length symbol. -/
def lenDist (dc : Huff) (sym : Nat) (bits : List Bool) : Except Nat (Nat × Nat × List Bool) :=
  if 285 < sym then .error infFormat
  else do
    let a ← takeBits (lenExtra.getD (sym - 257) 0) bits
    let d ← dc.symbol a.2
    if 29 < d.1 then .error infFormat
    else do
      let e ← takeBits (distExtra d.1) d.2
      .ok (lenBase.getD (sym - 257) 0 + a.1, distBase.getD d.1 0 + e.1, e.2)

/-- The symbols of a compressed block up to its end-of-block symbol. -/
def infCodes (lc dc : Huff) : Nat → Inf → Inf
  | 0, s => { s with err := some infTruncated }
  | f + 1, s =>
    match lc.symbol s.bits with
    | .error e => { s with err := some e }
    | .ok (sym, bits) =>
      if sym < 256 then infCodes lc dc f { s with bits := bits, out := BitVec.ofNat 8 sym :: s.out }
      else if sym = 256 then { s with bits := bits }
      else match lenDist dc sym bits with
        | .error e => { s with err := some e }
        | .ok (n, d, bits) =>
          if s.out.length < d then { s with err := some infFormat }
          else infCodes lc dc f { s with bits := bits, out := copyBack d n s.out }

/-- A stored block, after its three header bits. -/
def infStored (s : Inf) : Inf :=
  let b := s.bits.drop (s.bits.length % 8)
  match takeBits 16 b with
  | .error e => { s with err := some e }
  | .ok (len, b) =>
    match takeBits 16 b with
    | .error e => { s with err := some e }
    | .ok (nlen, b) =>
      if len + nlen ≠ 65535 then { s with err := some infFormat }
      else
        let k := min len (b.length / 8)
        let data := (List.range k).map (fun i => BitVec.ofNat 8 (bitsNum ((b.drop (8 * i)).take 8)))
        { bits := b.drop (8 * k), out := data.reverse ++ s.out,
          err := if k < len then some infTruncated else none }

/-- The lengths of the fixed literal and distance codes. -/
def fixedLit : List Nat :=
  List.replicate 144 8 ++ List.replicate 112 9 ++ List.replicate 24 7 ++ List.replicate 8 8
def fixedDist : List Nat := List.replicate 32 5

/-- The order in which code-length code lengths stand. -/
def clOrder : List Nat := [16, 17, 18, 0, 8, 7, 9, 6, 10, 5, 11, 4, 12, 3, 13, 2, 14, 1, 15]

/-- The 3-bit lengths of the code-length code, put in symbol order. -/
def clLens : Nat → List Nat → List Bool → List Nat → Except Nat (List Nat × List Bool)
  | 0, _, bits, acc => .ok (acc, bits)
  | _ + 1, [], _, _ => .error infFormat
  | n + 1, k :: r, bits, acc => do
    let a ← takeBits 3 bits
    clLens n r a.2 (acc.set k a.1)

/-- The literal and distance code lengths, newest first, `n` of them. -/
def readLens (h : Huff) (n : Nat) : Nat → List Nat → List Bool → Except Nat (List Nat × List Bool)
  | 0, _, _ => .error infTruncated
  | f + 1, acc, bits =>
    if n < acc.length then .error infFormat
    else if acc.length = n then .ok (acc.reverse, bits)
    else do
      let a ← h.symbol bits
      if a.1 < 16 then readLens h n f (a.1 :: acc) a.2
      else if a.1 = 16 then
        (match acc with
        | [] => .error infFormat
        | p :: _ => do
          let b ← takeBits 2 a.2
          readLens h n f (List.replicate (3 + b.1) p ++ acc) b.2)
      else if a.1 = 17 then do
        let b ← takeBits 3 a.2
        readLens h n f (List.replicate (3 + b.1) 0 ++ acc) b.2
      else do
        let b ← takeBits 7 a.2
        readLens h n f (List.replicate (11 + b.1) 0 ++ acc) b.2

/-- The two codes of a dynamic block: up to 286 literal and length symbols and 32 distance symbols. -/
def dynCodes (bits : List Bool) : Except Nat (Huff × Huff × List Bool) := do
  let hl ← takeBits 5 bits
  let hd ← takeBits 5 hl.2
  let hc ← takeBits 4 hd.2
  if 29 < hl.1 then .error infFormat
  else do
    let cl ← clLens (hc.1 + 4) clOrder hc.2 (List.replicate 19 0)
    if !(huffOk false cl.1) then .error infFormat
    else do
      let n := hl.1 + 257 + (hd.1 + 1)
      let l ← readLens (huffOf cl.1) n (n + 1) [] cl.2
      let lit := l.1.take (hl.1 + 257)
      let dist := l.1.drop (hl.1 + 257)
      if lit.getD 256 0 = 0 ∨ !(huffOk true lit) ∨ !(huffOk true dist) then .error infFormat
      else .ok (huffOf lit, huffOf dist, l.2)

/-- A fixed-Huffman or dynamic-Huffman block, after its header bits. -/
def infCoded (type : Nat) (s : Inf) : Inf :=
  if type = 1 then infCodes (huffOf fixedLit) (huffOf fixedDist) (s.bits.length + 1) s
  else match dynCodes s.bits with
    | .error e => { s with err := some e }
    | .ok (lc, dc, bits) => infCodes lc dc (bits.length + 1) { s with bits := bits }

/-- Blocks up to the final one. -/
def infBlocks : Nat → Inf → Inf
  | 0, s => { s with err := some infTruncated }
  | f + 1, s =>
    match takeBits 3 s.bits with
    | .error e => { s with err := some e }
    | .ok (h, bits) =>
      let type := h / 2
      let t : Inf :=
        if type = 0 then infStored { s with bits := bits }
        else if type = 3 then { s with err := some infFormat }
        else infCoded type { s with bits := bits }
      if t.err.isSome || h % 2 == 1 then t else infBlocks f t

/-- A whole stream: the final block's rest is skipped to the byte boundary. -/
def inflate (l : List Byte) : Inf :=
  let b := streamBits l
  let t := infBlocks (b.length + 1) { bits := b, out := [] }
  if t.err.isSome then t else { t with bits := t.bits.drop (t.bits.length % 8) }

/-! ### Coding a block -/

/-- A stored block, from a position `pos` bits into a byte. -/
def storedBlock (pos : Nat) (final : Bool) (block : List Byte) : List Bool :=
  let h := [final, false, false]
  h ++ List.replicate ((16 - (pos + 3) % 8) % 8) false ++ bitsLsb 16 block.length ++
    bitsLsb 16 (65535 - block.length) ++ streamBits block

/-- Whether bits are one fixed-Huffman or dynamic-Huffman block, with this BFINAL, of these bytes
after this window. -/
def codesBlock (hist block : List Byte) (final : Bool) (c : List Bool) : Bool :=
  match takeBits 3 c with
  | .error _ => false
  | .ok (h, bits) =>
    let t := infCoded (h / 2) { bits := bits, out := hist }
    (h % 2 == 1) == final && (h / 2 == 1 || h / 2 == 2) && t.err.isNone && t.bits.isEmpty &&
      (t.out == block.reverse ++ hist)

/-- A part of a block as the search leaves it: a byte of its own, or a copy of `n` bytes from distance
`d`. -/
inductive Token where
  | lit (b : Byte)
  | copy (d n : Nat)
  deriving DecidableEq, Repr

/-- Whether the three bytes at distance `d` are those that come next: what a hash chain links. -/
def sameThree (out next : List Byte) (d : Nat) : Bool :=
  decide (d ≤ out.length) &&
    (List.range 3).all (fun j =>
      (if j < d then out[d - 1 - j]? else next[j - d]?) == next[j]? && (next[j]?).isSome)

/-- Whether a copy may be found: 3 to 258 bytes, a distance in the 32 KiB window, fewer than 2^(LEVEL+1)
nearer places on its chain, and the same bytes (R326). -/
def copyOk (level : Nat) (out next : List Byte) (d n : Nat) : Bool :=
  decide (3 ≤ n) && decide (n ≤ 258) && decide (1 ≤ d) && decide (d ≤ 32768) && decide (d ≤ out.length) &&
    decide ((((List.range (d - 1)).filter (fun k => sameThree out next (k + 1))).length) < 2 ^ (level + 1)) &&
    ((copyBack d n out).take n).reverse == next.take n

/-- Whether a search may leave these tokens for the bytes that come next (R326). -/
def tokensOk (level : Nat) : List Byte → List Byte → List Token → Bool
  | _, next, [] => next.isEmpty
  | out, next, .lit b :: r => next.head? == some b && tokensOk level (b :: out) next.tail r
  | out, next, .copy d n :: r =>
    copyOk level out next d n && tokensOk level (copyBack d n out) (next.drop n) r

/-- The tokens of a block: those found, or a literal for each byte. -/
def searched (level : Nat) (hist block : List Byte) : List Token :=
  let l := (Config.deflateSearch level hist block).map (fun x =>
    if x.1 = 0 then .lit (BitVec.ofNat 8 x.2) else .copy x.1 x.2)
  if tokensOk level hist block l then l else block.map .lit

/-- The first code of each length (RFC 1951, 3.2.2). -/
def firstCode (counts : List Nat) : Nat → Nat
  | 0 => 0
  | k + 1 => 2 * (firstCode counts k + (if k = 0 then 0 else counts.getD (k - 1) 0))

/-- A symbol's code in stream order, most significant bit first. -/
def symBits (lens : List Nat) (sym : Nat) : List Bool :=
  let n := lens.getD sym 0
  let c := firstCode (huffOf lens).counts n +
    ((List.range sym).filter (fun k => lens.getD k 0 == n)).length
  (bitsLsb n c).reverse

/-- The symbol of a length or of a distance: the last whose base does not lie above it. -/
def baseSym (bases : List Nat) (x : Nat) : Nat := (bases.filter (fun b => decide (b ≤ x))).length - 1

def Token.bits (lit dist : List Nat) : Token → List Bool
  | .lit b => symBits lit b.toNat
  | .copy d n =>
    let k := baseSym lenBase n
    let e := baseSym distBase d
    symBits lit (257 + k) ++ bitsLsb (lenExtra.getD k 0) (n - lenBase.getD k 0) ++
      symBits dist e ++ bitsLsb (distExtra e) (d - distBase.getD e 0)

def tokenBits (lit dist : List Nat) (l : List Token) : List Bool :=
  l.flatMap (Token.bits lit dist) ++ symBits lit 256

/-- The block in the fixed codes, and in two codes of its own with the header that gives them. -/
def fixedBlock (final : Bool) (l : List Token) : List Bool :=
  [final, true, false] ++ tokenBits fixedLit fixedDist l
def dynBlock (final : Bool) (codes : List Nat × List Nat × List Bool) (l : List Token) : List Bool :=
  [final, false, true] ++ codes.2.2 ++ tokenBits codes.1 codes.2.1 l

/-- The shorter of a coding in hand and another that is one block of these bytes. -/
def shorter (hist block : List Byte) (final : Bool) (best c : List Bool) : List Bool :=
  if decide (c.length < best.length) && codesBlock hist block final c then c else best

/-- A block as Termite codes it: stored, with fixed codes or with codes of its own, whichever is
shortest; LEVEL 0 only stored (R326). -/
def codeBlock (level pos : Nat) (hist block : List Byte) (final : Bool) : List Bool :=
  let st := storedBlock pos final block
  if level = 0 then st
  else
    let l := searched level hist block
    shorter hist block final (shorter hist block final st (fixedBlock final l))
      (dynBlock final (Config.deflateCodes level hist block) l)

end Sys2Proof.Machine
end

