-- ==== Sys2Proof/Machine/Termite.lean ====
section
/-!
DEFINITION. Termite (R325 to R330): jobs, their sources and output chains, compression and
decompression, and the end of a job.
-/

namespace Sys2Proof.Machine

/-! ### Address rights (Table 10.3) -/

/-- Whether a core may read memory here. -/
def memReadable (a : Nat) : Bool :=
  decide (a < 0x02000000) || (decide (0x04000000 ≤ a) && decide (a < memEnd))

/-- Whether a core may write memory here. -/
def memWritable (a : Nat) : Bool := memReadable a && !(decide (0x05000000 ≤ a) && decide (a < 0x08000000))

/-- The rights over a range: every byte of it; the map has no gap inside the ranges it allows. -/
def rangeReadable (a n : Nat) : Bool :=
  n == 0 || (memReadable a && memReadable (a + n - 1) &&
    (decide (a < 0x02000000) == decide (a + n - 1 < 0x02000000)))
def rangeWritable (a n : Nat) : Bool :=
  n == 0 || (rangeReadable a n && memWritable a && memWritable (a + n - 1) &&
    (decide (a < 0x05000000) == decide (a + n - 1 < 0x05000000)))

/-- Whether a range lies in the program and data region. -/
def inProgram (a n : Nat) : Bool := decide (a + n ≤ 0x02000000)

/-! ### Jobs -/

def State.job (s : State) (e : Nat) : TrmJob := tget (fun _ => {}) s.trm e
def State.setJob (s : State) (e : Nat) (j : TrmJob) : State :=
  { s with trm := tset (fun _ => {}) e j s.trm }

/-- A field of engine e's registers. -/
def trmFld (e : Nat) (x : Fld) : Fld := x.up (0x20 * e)
def State.trmBusy (s : State) (e : Nat) : Bool := s.flag (trmFld e F.TRM_STAT_BUSY)
def State.trmSusp (s : State) (e : Nat) : Bool := s.flag (trmFld e F.TRM_STAT_SUSP)

/-- The status codes of Table 13.7. -/
def tcOk : Nat := 0
def tcOutFull : Nat := 1
def tcCrc : Nat := 3
def tcTrailing : Nat := 5
def tcPoison : Nat := 6
def tcAborted : Nat := 7
def tcMothState : Nat := 8
def tcDesc : Nat := 9

/-- A byte count as a job shows it: it saturates (R250). -/
def trmCount (n : Nat) : Nat := min n 0xFFFFFFFF

/-- TRM_IN and TRM_OUT show the job's progress. -/
def State.trmShow (s : State) (e : Nat) : State :=
  (s.setFld (trmFld e F.TRM_IN_VAL) (trmCount (s.job e).inBytes)).setFld (trmFld e F.TRM_OUT_VAL)
    (trmCount (s.job e).outBytes)

/-- The end of a job (R330): results into the descriptor, then DONE, the vector and the event flag. -/
def trmEnd (e code : Nat) (s : State) : State :=
  let j := s.job e
  let s := s.store (j.desc + 20) (leBytes 4 code ++ leBytes 4 (trmCount j.inBytes) ++ leBytes 4 (trmCount j.outBytes) ++
    leBytes 4 (~~~j.crc).toNat)
  let s := (s.setFlag (trmFld e F.TRM_STAT_BUSY) false).setFlag (trmFld e F.TRM_STAT_SUSP) false
  let s := s.setFlag (trmFld e F.TRM_CMD_FINISH) false
  let s := (s.setFlag (trmFld e F.TRM_STAT_DONE) true).setFld (trmFld e F.TRM_STAT_CODE) code
  let s := ((s.trmShow e).vector (8 + e)).setJob e {}
  if j.notify then hivSetFlag j.htask j.hflag s else s

/-- HST_STAT.ABORT and its report (R406). -/
def State.hostAbort (s : State) (detail : Nat) : State :=
  (s.setFlag F.HST_STAT_ABORT true).report 0x2D detail

/-- Bytes written to host memory at a bus address. -/
def State.hostWrite (s : State) (a : Nat) : List Byte → State
  | [] => s
  | b :: r => ({ s with hst := { s.hst with hostMem := tset (fun _ => 0) a b s.hst.hostMem } }).hostWrite
      (a + 1) r

/-! ### The output chain (R325, R329) -/

/-- A chain entry: its faults, if any, and its fields. -/
def State.chainEntry (s : State) (a : Nat) : Except Nat (Nat × Nat × Bool) :=
  if a % 16 ≠ 0 ∨ !(inProgram a 16) then .error tcDesc
  else if s.poisoned a 16 then .error tcPoison
  else
    let addr := s.rdN a 8
    let len := s.rdN (a + 8) 4
    let next := s.rdN (a + 12) 4
    let host := next % 2 == 1
    if len = 0 ∨ next / 2 % 8 ≠ 0 ∨ (!host && !(rangeWritable addr len)) then .error tcDesc
    else .ok (addr, len, host)

/-- The job goes on in the chain entry at an address. -/
def trmLoadEntry (e a : Nat) (s : State) : State :=
  let s := if inProgram a 16 then s.checkRead a 16 else s
  match s.chainEntry a with
  | .error c => trmEnd e c (s.setJob e { s.job e with output := [] })
  | .ok (addr, len, host) =>
    let j := s.job e
    s.setJob e { j with
      entry := a, dest := addr, left := len, host := host, hostUsed := j.hostUsed || host }

/-- NEXT of the present entry as it stands when the output reaches the entry's end (R329): the address of
the entry after it, 0 when it is the last, or the fault that NEXT shows (Table 13.7). -/
def State.chainNext (s : State) (e : Nat) : Except Nat Nat :=
  let a := (s.job e).entry + 12
  let next := s.rdN a 4
  if s.poisoned a 4 then .error tcPoison
  else if next / 2 % 8 ≠ 0 then .error tcDesc
  else .ok (next / 16 * 16)

/-- The entry after the present one is taken in use; with none, the output waits. -/
def trmNext (e : Nat) (s : State) : State :=
  let s := s.checkRead ((s.job e).entry + 12) 4
  match s.chainNext e with
  | .error c => trmEnd e c (s.setJob e { s.job e with output := [] })
  | .ok a => if a = 0 then s else trmLoadEntry e a s

/-- Output placed as far as the chain goes. -/
def trmPlace (e : Nat) : Nat → State → State
  | 0, s => s
  | f + 1, s =>
    let j := s.job e
    if !(s.trmBusy e) || j.output.isEmpty then s
    else if j.left = 0 then
      (let t := trmNext e s
       if (t.job e).left = 0 then t else trmPlace e f t)
    else if j.host && !(s.flag F.HST_STAT_BME) then trmEnd e tcAborted (s.hostAbort (8 + e))
    else
      let k := min j.left j.output.length
      let bs := j.output.take k
      let s := if j.host then s.hostWrite j.dest bs else s.store j.dest bs
      trmPlace e f (s.setJob e { j with
        output := j.output.drop k, dest := j.dest + k, left := j.left - k, outBytes := j.outBytes + k })

def State.trmPlace (s : State) (e : Nat) : State :=
  Sys2Proof.Machine.trmPlace e (2 * (s.job e).output.length + 2) s

/-! ### Compression (R326) -/

/-- Whole bytes of a bit stream, and the bits of the byte begun. -/
def wholeBytes : Nat → List Bool → List Byte × List Bool
  | 0, l => ([], l)
  | f + 1, l =>
    if l.length < 8 then ([], l)
    else
      let q := wholeBytes f (l.drop 8)
      (BitVec.ofNat 8 (bitsNum (l.take 8)) :: q.1, q.2)

/-- The block in hand is closed. -/
def TrmJob.closeBlock (j : TrmJob) (final : Bool) : TrmJob :=
  let c := j.bits ++ codeBlock j.level j.bits.length j.hist j.block.reverse final
  let q := wholeBytes (c.length / 8) c
  { j with output := j.output ++ q.1, bits := q.2, hist := (j.block ++ j.hist).take 32768, block := [] }

/-- The most input a block takes (R326). -/
def blockMax : Nat := 65535

/-- Input bytes into the block in hand; a full block is closed when another byte follows. -/
def TrmJob.feed : Nat → TrmJob → List Byte → TrmJob
  | 0, j, _ => j
  | f + 1, j, l =>
    let k := blockMax - j.block.length
    let j := { j with block := (l.take k).reverse ++ j.block }
    if (l.drop k).isEmpty then j else TrmJob.feed f (j.closeBlock false) (l.drop k)

/-- Source bytes consumed by a compression. -/
def TrmJob.consume (j : TrmJob) (l : List Byte) : TrmJob :=
  let j := j.feed (l.length / blockMax + 2) l
  { j with crc := l.foldl crc32Byte j.crc, inBytes := j.inBytes + l.length }

/-- The stream closed: the final block, the byte boundary and the trailer. -/
def TrmJob.close (j : TrmJob) (code : Nat) : TrmJob :=
  let j := j.closeBlock true
  let last := if j.bits.isEmpty then [] else [BitVec.ofNat 8 (bitsNum j.bits)]
  let tail := if j.trailer then leBytes 4 (~~~j.crc).toNat ++ leBytes 4 j.inBytes else []
  { j with output := j.output ++ last ++ tail, bits := [], closed := true, code := code, toRead := [] }

/-! ### Decompression (R327) -/

/-- The whole of a source expanded; `cut`: a poisoned word follows it. -/
def TrmJob.expand (j : TrmJob) (l : List Byte) (cut : Bool) : TrmJob :=
  let t := inflate l
  let out := t.out.reverse
  let rest := l.drop (l.length - t.bits.length / 8)
  let crc := ~~~(crc32 out)
  let tail := if j.trailer then 8 else 0
  let code :=
    match t.err with
    | some c => if c = infTruncated ∧ cut then tcPoison else c
    | none =>
      if rest.length < tail then (if cut then tcPoison else infTruncated)
      else if j.trailer ∧ rest.take 8 ≠ leBytes 4 (~~~crc).toNat ++ leBytes 4 out.length then tcCrc
      else if tail < rest.length ∨ cut then tcTrailing else tcOk
  { j with output := j.output ++ out, crc := crc, toRead := [], closed := true, code := code
           inBytes := l.length - (rest.length - min tail rest.length) }

/-! ### Reading the source -/

/-- The drain header of a record (Table 13.2). -/
def drainHeader (r : RecSt) (gap len : Nat) : List Byte :=
  leBytes 4 r.sweep.toNat ++ leBytes 2 (r.flags + 1) ++ leBytes 2 r.n ++ leBytes 4 gap ++ leBytes 4 len

/-- Where a record of the ring lies and how long it is (Table 13.1). -/
def recLen (flags : Nat) : Nat := if flags.testBit 3 then 24576 else 12288
def recAddr (r : RecSt) : Nat := 0x05000000 + recLen r.flags * r.slot

/-- A record lost to the job (R323, R324). -/
def trmSkip (e : Nat) (s : State) : State :=
  (s.setJob e { s.job e with gap := (s.job e).gap + 1 }).bump F.MTH_LOSS_VAL 1

/-- One part of the source read. -/
def trmRead (e : Nat) (x : Piece) (s : State) : State :=
  match x with
  | .lost => trmSkip e s
  | .mem a n =>
    let s := s.checkUpTo a n
    let k := s.cleanLen a n
    let j := s.job e
    if j.op = 1 then s.setJob e (j.expand (s.rdBytes a k) (decide (k < n)))
    else
      let s := s.setJob e (j.consume (s.rdBytes a k))
      if k < n then trmEnd e tcPoison s else s
  | .record r =>
    let a := recAddr r
    let n := recLen r.flags
    if s.poisoned a n then trmSkip e ((s.checkRead a n).setFlag F.MTH_STAT_POISON true)
    else
      let s := s.correct a n
      let j := s.job e
      s.setJob e { j.consume (drainHeader r j.gap n ++ s.rdBytes a n) with gap := 0 }

/-- The engine works: output is placed, and source is read while none waits. A source that has been
read whole closes the job; a stream stays open. While it is suspended it does nothing (R329). -/
def trmRun (e : Nat) : Nat → State → State
  | 0, s => s
  | f + 1, s =>
    let s := if s.trmSusp e then s else s.trmPlace e
    let j := s.job e
    if !(s.trmBusy e) || s.trmSusp e || !j.output.isEmpty || j.closed then s
    else match j.toRead with
      | [] => if j.src = 2 then s else trmRun e f (s.setJob e (j.close tcOk))
      | x :: r => trmRun e f (trmRead e x (s.setJob e { j with toRead := r }))

def trmWork (e : Nat) (s : State) : State :=
  (trmRun e ((s.job e).toRead.length + 3) s).trmShow e

/-- A source range as parts of at most one block. -/
def piecesOf : Nat → Nat → Nat → List Piece
  | 0, _, _ => []
  | f + 1, a, n => if n = 0 then [] else .mem a (min n blockMax) :: piecesOf f (a + blockMax) (n - blockMax)

/-! ### Commands -/

/-- Whether another engine's job names Moth as its source (R330). -/
def State.mothTaken (s : State) (e : Nat) : Bool :=
  (List.range 2).any (fun k => k != e && s.trmBusy k && (s.job k).src != 0)

/-- A record as a part of a source: one whose slot has been written again is lost to the job (R323) (DEDUCED:
assumption 255). -/
def recPiece (r : RecSt) : Piece := if r.gone then .lost else .record r

/-- The records of a frozen capture, oldest first (R321 to R323). -/
def State.captured (s : State) : List Piece :=
  if s.fld F.MTH_STAT_PHASE == 3 then (s.mth.cap.map recPiece).reverse else []

/-- The job a descriptor describes, without its sources and chain. -/
def State.jobAt (s : State) (d : Nat) : TrmJob :=
  let ctl := s.rd32 d
  { desc := d, op := bitsOf ctl 0 2, src := bitsOf ctl 4 2, level := bitsOf ctl 8 4
    trailer := ctl.getLsbD 12, notify := ctl.getLsbD 13
    htask := s.rdN (d + 16) 2 % 4096, hflag := s.rdN (d + 18) 1 % 64 }

/-- The bits of CTL that are not reserved (Table 13.5). -/
def ctlMask : Word := 0x00003F33

/-- Whether a descriptor's fields are in order (Table 13.5, DESC of Table 13.7). -/
def State.jobOk (s : State) (j : TrmJob) : Bool :=
  let d := j.desc
  (s.rd32 d &&& ~~~ctlMask) == 0 && decide (j.op ≤ 1) && decide (j.src ≤ 2) && decide (j.level ≤ 9) &&
    (j.op == 0 || j.src == 0) && (s.rdN (d + 16) 2 == j.htask) && (s.rdN (d + 18) 1 == j.hflag) &&
    (s.rdN (d + 19) 1 == 0) && ((s.rdBytes (d + 36) 28).all (fun b => b == 0)) &&
    (j.src != 0 || rangeReadable (s.rdN (d + 4) 4) (s.rdN (d + 8) 4))

/-- The source parts of a job as it starts. -/
def State.jobPieces (s : State) (j : TrmJob) : List Piece :=
  let a := s.rdN (j.desc + 4) 4
  let n := s.rdN (j.desc + 8) 4
  if j.src = 1 then s.captured
  else if j.src = 2 then []
  else if j.op = 1 then [.mem a n]
  else piecesOf (n / blockMax + 1) a n

/-- TRM_CMD.START (R325, R330). -/
def trmStart (e : Nat) (s : State) : State :=
  if s.trmBusy e then s
  else
    let d := 64 * s.fld (trmFld e F.TRM_DESC_ADDR)
    let s := (s.setFlag (trmFld e F.TRM_STAT_BUSY) true).setFld (trmFld e F.TRM_STAT_CODE) 0
    let s := s.setJob e { desc := d }
    if s.poisoned d 64 then trmEnd e tcPoison (s.checkRead d 64)
    else
      let s := s.correct d 64
      let j := s.jobAt d
      let t := s.setJob e j
      if !(s.jobOk j) then trmEnd e tcDesc t
      else if j.src != 0 && (s.mothTaken e || (j.src == 1 && s.fld F.MTH_STAT_PHASE != 3)) then
        trmEnd e tcMothState t
      else
        let t := trmLoadEntry e (s.rdN (d + 12) 4) (s.setJob e { j with toRead := s.jobPieces j })
        if t.trmBusy e then trmWork e t else t

/-- OUT_FULL (R329): output waits and the chain had ended when the engine read NEXT. -/
def State.chainFull (s : State) (e : Nat) : Bool :=
  !((s.job e).output.isEmpty) && (s.job e).left == 0
def outFull (e : Nat) (s : State) : State :=
  if s.trmBusy e && !(s.trmSusp e) && s.chainFull e then
    (s.setFlag (trmFld e F.TRM_STAT_SUSP) true).setFld (trmFld e F.TRM_STAT_CODE) tcOutFull
  else s

/-- TRM_CMD.RESUME (R329). -/
def trmResume (e : Nat) (s : State) : State :=
  if s.trmBusy e && s.trmSusp e then
    trmWork e ((s.setFlag (trmFld e F.TRM_STAT_SUSP) false).setFld (trmFld e F.TRM_STAT_CODE) 0)
  else s

/-- A job closed before its source ends: FINISH, and Moth's change of mode (R319, R329). A job whose
stream has been closed already keeps its own code. -/
def trmClose (e code : Nat) (s : State) : State :=
  let j := s.job e
  if j.closed then s else trmWork e (s.setJob e (j.close code))

/-- TRM_CMD.FINISH (R329): it reads 1 until the job has ended (R13). A stream closed already is not finished
again (DEDUCED: assumption 102). -/
def trmFinish (e : Nat) (s : State) : State :=
  if s.trmBusy e && (s.job e).src == 2 && !(s.job e).closed then
    trmClose e tcOk (s.setFlag (trmFld e F.TRM_CMD_FINISH) true)
  else s

/-- TRM_CMD.ABORT (R329). -/
def trmAbort (e : Nat) (s : State) : State := if s.trmBusy e then trmEnd e tcAborted s else s

/-- A job whose stream is closed and placed ends (R330). -/
def trmJobEnd (e : Nat) (s : State) : State :=
  let j := s.job e
  if s.trmBusy e && j.closed && j.output.isEmpty then trmEnd e j.code s else s

/-- Loss of bus mastering ends the jobs that write to the host (R329, R406). -/
def trmLoseHost (s : State) : State :=
  forN 2 (fun e s =>
    if s.trmBusy e && (s.job e).hostUsed then trmEnd e tcAborted (s.hostAbort (8 + e)) else s) s

def execTrmStart (e : Fin 2) (s : State) : Host.Outcome State Fault Refusal := .next (trmStart e.val s)

def execTrmResume (e : Fin 2) (s : State) : Host.Outcome State Fault Refusal := .next (trmResume e.val s)

def execTrmFinish (e : Fin 2) (s : State) : Host.Outcome State Fault Refusal := .next (trmFinish e.val s)

def execTrmAbort (e : Fin 2) (s : State) : Host.Outcome State Fault Refusal := .next (trmAbort e.val s)

def execOutFull (e : Fin 2) (s : State) : Host.Outcome State Fault Refusal := .next (outFull e.val s)

def execTrmJobEnd (e : Fin 2) (s : State) : Host.Outcome State Fault Refusal := .next (trmJobEnd e.val s)

end Sys2Proof.Machine
end

