-- ==== Sys2Proof/Machine/Host.lean ====
section
/-!
DEFINITION. The host interface (R402 to R409): the memory window, DMA, Bus Master Enable and
function-level reset, and interrupts.
-/

namespace Sys2Proof.Machine

/-- An unmapped access (R28). -/
def State.unmapped (s : State) (off : Nat) : State := s.report 0x02 (off / 4)

/-! ### The window (R403) -/

/-- The memory address a window offset reaches. -/
def State.winAddr (s : State) (off : Nat) : Nat := s.fld F.HST_WIN_BASE * 0x10000 + (off - 0x800000)

/-- A host write into the window. -/
def hostWindowWrite (off : Nat) (be : BitVec 8) (data : BitVec 64) (s : State) : State :=
  if off < 0x800000 then s
  else
    let a := s.winAddr off / 8 * 8
    if memEnd ≤ a then s.unmapped off
    else if memWritable a then s.eccWrite a be data 8
    else s.rejWrite off

def execHostWindowWrite (off : BitVec 24) (be : BitVec 8) (data : BitVec 64) (s : State) :
    Host.Outcome State Fault Refusal := .next (hostWindowWrite off.toNat be data s)

/-! ### DMA (R404, R405) -/

def dmaFld (c : Nat) (x : Fld) : Fld := x.up (0x10 * c)

/-- Status codes (Table 17.2). -/
def dcOk : Nat := 0
def dcAborted : Nat := 1
def dcHostErr : Nat := 2
def dcTimeout : Nat := 3
def dcPoison : Nat := 4
def dcDesc : Nat := 5

/-- Channel 8 stands for a request whose work has ended. -/
def dmaDead : Nat := 8

/-- The descriptor at an address, with the code it fails with or 0. -/
def State.dmaDesc (s : State) (d : Nat) : DmaSt :=
  let ctl := s.rdN d 4
  let len := s.rdN (d + 4) 4
  let sram := s.rdN (d + 16) 4
  let out := ctl % 2 == 1
  let ok := decide (ctl < 4) && decide (1 ≤ len) && decide (len ≤ 16777216) &&
    (if out then rangeReadable sram len else rangeWritable sram len)
  { desc := d, busy := true, toHost := out, notify := ctl / 2 % 2 == 1, len := len
    host := s.rdN (d + 8) 8, sram := sram, next := s.rdN (d + 20) 4
    code := if ok then dcOk else dcDesc }

/-- The channel stops with a code: CODE, DONE and the vector. -/
def dmaStop (c code : Nat) (s : State) : State :=
  let s := s.setDma c {}
  let s := (s.setFlag (dmaFld c F.HST_DSTAT_BUSY) false).setFlag (dmaFld c F.HST_DSTAT_DONE) true
  (s.setFld (dmaFld c F.HST_DSTAT_CODE) code).vector c

/-- The lowest free tag. -/
def State.freeTagNo (s : State) : Option Nat :=
  (List.range 1024).find? (fun t => !(s.hst.tags.any (fun e => e.1 == t)))

def tagDefault (_ : Nat) : TagSt := { ch := 0, addr := 0, len := 0, at_ := 0 }
def State.setTags (s : State) (l : Tab TagSt) : State := { s with hst := { s.hst with tags := l } }

/-- The bytes of the next read request: not above the maximum read request size or 512, and not
across a 4 KiB boundary. -/
def State.reqLen (s : State) (d : DmaSt) : Nat :=
  let a := d.host + d.issued
  min (min 512 (128 * 2 ^ s.hst.mrrs)) (min (d.len - d.issued) (4096 - a % 4096))

/-- Whether a channel may issue requests. -/
def State.dmaMay (s : State) (c : Nat) : Bool :=
  let d := s.dma c
  d.busy && d.code == dcOk && decide (d.issued < d.len) && s.flag F.HST_STAT_BME

/-- Read requests issued, as far as tags go. -/
def dmaRead (c : Nat) : Nat → State → State
  | 0, s => s
  | f + 1, s =>
    if s.dmaMay c && decide (s.hst.tags.length < 256) then
      match s.freeTagNo with
      | none => s
      | some t =>
        let d := s.dma c
        let k := s.reqLen d
        let e : TagSt := { ch := c, addr := d.sram + d.issued, len := k, at_ := s.now }
        dmaRead c f ((s.setTags (insBy (fun a b => decide (a.1 ≤ b.1)) (t, e) s.hst.tags)).setDma c
          { d with issued := d.issued + k })
    else s

/-- Data sent to the host, up to a poisoned word. -/
def dmaSend (c : Nat) (s : State) : State :=
  if s.dmaMay c then
    let d := s.dma c
    let s := s.checkUpTo d.sram d.len
    let k := s.cleanLen d.sram d.len
    (s.hostWrite d.host (s.rdBytes d.sram k)).setDma c
      { d with issued := d.len, done := k, code := if k < d.len then dcPoison else dcOk }
  else s

/-- The channel goes on with its descriptor. -/
def dmaIssue (c : Nat) (s : State) : State :=
  if (s.dma c).toHost then dmaSend c s else dmaRead c 256 s

/-- The channel takes the descriptor at an address. -/
def dmaLoad (c a : Nat) (s : State) : State :=
  if a % 32 ≠ 0 ∨ !(inProgram a 32) then dmaStop c dcDesc s
  else if s.poisoned a 32 then
    (s.checkRead a 32).setDma c { desc := a, busy := true, code := dcPoison }
  else
    let s := s.correct a 32
    dmaIssue c (s.setDma c (s.dmaDesc a))

/-- HST_DCMD.START. -/
def dmaStart (c : Nat) (s : State) : State :=
  if s.flag (dmaFld c F.HST_DSTAT_BUSY) then s
  else
    dmaLoad c (32 * s.fld (dmaFld c F.HST_DDESC_ADDR)) (s.setFlag (dmaFld c F.HST_DSTAT_BUSY) true)

def execDmaStart (c : Fin 8) (s : State) : Host.Outcome State Fault Refusal := .next (dmaStart c.val s)

/-- Outstanding requests of a channel whose descriptor has ended: a late completion is discarded. -/
def dmaOrphan (c : Nat) (s : State) : State :=
  s.setTags (s.hst.tags.map (fun e => if e.2.ch == c then (e.1, { e.2 with ch := dmaDead }) else e))

/-- STATUS and DONE_BYTES written; the chain goes on or stops (R405). -/
def dmaFinish (c : Nat) (s : State) : State :=
  let d := s.dma c
  let s := dmaOrphan c s
  let s := s.store (d.desc + 24) (leBytes 4 d.code ++ leBytes 4 d.done)
  if d.code ≠ dcOk then dmaStop c d.code s
  else
    let s := s.setFld (dmaFld c F.HST_DSTAT_CODE) dcOk
    let s := if d.notify then s.vector c else s
    if d.next ≠ 0 then dmaLoad c d.next s
    else
      let s := s.setDma c {}
      (s.setFlag (dmaFld c F.HST_DSTAT_BUSY) false).setFlag (dmaFld c F.HST_DSTAT_DONE) true

/-- A descriptor ends: all its data has arrived, or it has failed. -/
def descriptorEnd (c : Nat) (s : State) : State :=
  let d := s.dma c
  if d.busy && (d.code != dcOk || d.done == d.len) then dmaFinish c s else s

def execDescriptorEnd (c : Fin 8) (s : State) : Host.Outcome State Fault Refusal :=
  .next (descriptorEnd c.val s)

/-- Free values in the bytes of a range (R406: the rest of the destination), but not behind the retention
fence (R386). -/
def State.fillFree (s : State) (a n : Nat) : State :=
  if s.mod.fence ∧ 0x08000000 ≤ a then s
  else (s.wrBytes a ((List.range n).map (Config.freeByte s.free))).draw

/-- What has not arrived of the channel's destination is undefined. -/
def dmaSpoil (c : Nat) (s : State) : State :=
  let d := s.dma c
  if d.toHost || d.code == dcDesc || d.len == 0 then s
  else
    forL (s.hst.tags.filter (fun e => e.2.ch == c)) (fun (e : Nat × TagSt) s => s.fillFree e.2.addr e.2.len)
      (s.fillFree (d.sram + d.issued) (d.len - d.issued))

/-- The descriptor in progress ends ABORTED (R406). -/
def dmaAbort (c : Nat) (s : State) : State :=
  if (s.dma c).busy then
    let s := dmaSpoil c s
    dmaFinish c ((s.setDma c { s.dma c with code := dcAborted }).hostAbort c)
  else s

def execDmaAbort (c : Fin 8) (s : State) : Host.Outcome State Fault Refusal := .next (dmaAbort c.val s)

/-- A request is answered or given up: its tag is free, and channels that wait for one go on. -/
def dmaTagFree (t : Nat) (s : State) : State :=
  let s := s.setTags (s.hst.tags.filter (fun e => e.1 != t))
  forN 8 dmaIssue s

/-- A completion for an outstanding read (R405, R406). One that carries part of the data leaves the
rest of the request outstanding. -/
def pcieCompletion (t : Nat) (err : Bool) (data : List Byte) (s : State) : State :=
  match s.hst.tags.find? (fun e => e.1 == t) with
  | none => s
  | some (_, e) =>
    if e.ch = dmaDead then dmaTagFree t (s.bump F.HST_STAT_LATE_CPL 1)
    else if err then
      dmaTagFree t (dmaOrphan e.ch (s.setDma e.ch { s.dma e.ch with code := dcHostErr }))
    else
      let bs := data.take e.len
      let s := s.store e.addr bs
      let s := s.setDma e.ch { s.dma e.ch with done := (s.dma e.ch).done + bs.length }
      if bs.length < e.len then
        s.setTags (s.hst.tags.map (fun x => if x.1 == t then
          (t, { e with addr := e.addr + bs.length, len := e.len - bs.length }) else x))
      else dmaTagFree t s

def execPcieCompletion (tag : Fin 1024) (err : Bool) (data : List Byte) (s : State) :
    Host.Outcome State Fault Refusal := .next (pcieCompletion tag.val err data s)

/-- A read has no completion within 50 ms (R406). -/
def completionTimeout (t : Nat) (s : State) : State :=
  match s.hst.tags.find? (fun e => e.1 == t) with
  | none => s
  | some (_, e) =>
    let s := s.reach (e.at_ + 50 * psMs)
    if e.ch = dmaDead then dmaTagFree t s
    else dmaTagFree t (dmaOrphan e.ch (s.setDma e.ch { s.dma e.ch with code := dcTimeout }))

def execCompletionTimeout (tag : Fin 1024) (s : State) : Host.Outcome State Fault Refusal :=
  .next (completionTimeout tag.val s)

/-! ### Bus Master Enable and function-level reset (R406, R407) -/

/-- Bus mastering ends: channels and the Termite engines that write to the host. -/
def busOff (s : State) : State := trmLoseHost (forN 8 dmaAbort (s.setFlag F.HST_STAT_BME false))

/-- The host's write of its configuration space. -/
def bmeClear (cfg : HostCfg) (s : State) : State :=
  let s := if s.flag F.HST_STAT_BME && !cfg.bme then busOff s else s
  let s := (s.setFlag F.HST_STAT_BME cfg.bme).setFlag F.HST_STAT_MSIX_EN cfg.msixEn
  let s := (s.setFld F.HST_STAT_SPEED cfg.speed.val).setFld F.HST_STAT_WIDTH cfg.width.val
  let s := { s with hst := { s.hst with
      msixEn := cfg.msixEn, fnMask := cfg.fnMask, mrrs := cfg.mrrs.val } }
  forN 8 dmaIssue s

def execBmeClear (cfg : HostCfg) (s : State) : Host.Outcome State Fault Refusal := .next (bmeClear cfg s)

/-- The HST block's registers, with the MSI-X table and the PBA. -/
def isHst (a : Nat) : Bool := decide (0x180000 ≤ a) && decide (a < 0x190000)

/-- A function-level reset. -/
def flr (s : State) : State :=
  let s := busOff s
  { s with
    regs := s.regs.filter (fun e => !(isHst e.1))
    hst := { s.hst with dma := [], msixEn := false, fnMask := false, mrrs := 2, ticks := 0 } }

def execFlr (s : State) : Host.Outcome State Fault Refusal := .next (flr s)

/-! ### Interrupts (R408, R409) -/

def State.pba (s : State) (v : Nat) : Bool := (s.reg (R.HST_PBA + 4 * (v / 32))).getLsbD (v % 32)

/-- Whether the host lets the message of a vector be sent. -/
def State.msixMay (s : State) (v : Nat) : Bool :=
  s.hst.msixEn && !s.hst.fnMask && s.flag F.HST_STAT_BME && !((s.reg (R.HST_MSIX + 16 * v + 12)).getLsbD 0)

/-- The message of a pending vector is sent. -/
def msixSend (v : Nat) (s : State) : State :=
  if s.pba v && s.msixMay v then
    let a := R.HST_PBA + 4 * (v / 32)
    let s := s.setReg a (s.reg a &&& ~~~(maskOf (v % 32) 1))
    { s with hst := { s.hst with sent := v :: s.hst.sent } }
  else s

def execMsixSend (v : Fin 64) (s : State) : Host.Outcome State Fault Refusal := .next (msixSend v.val s)

/-- HST_DOORBELL. -/
def doorbell (bits : Byte) (s : State) : State := s.ipendAll bits.toNat 4

def execDoorbell (bits : Byte) (s : State) : Host.Outcome State Fault Refusal := .next (doorbell bits s)

/-- HST_FWINT. -/
def fwint (v : Nat) (s : State) : State := if 32 ≤ v then s.vector v else s

def execFwint (v : Fin 64) (s : State) : Host.Outcome State Fault Refusal := .next (fwint v.val s)

end Sys2Proof.Machine
end

