-- ==== Sys2Proof/Machine/Ether.lean ====
section
/-!
DEFINITION. The two Ethernet ports (R410 to R414), the safety slots, and the commands of the safety
channel that use them (R365, R366). Port 1 is `true`.
-/

namespace Sys2Proof.Machine

def portNo (p : Bool) : Nat := if p then 1 else 0
def ethFld (p : Bool) (x : Fld) : Fld := x.up (0x400 * portNo p)

/-- A big-endian number of `n` bytes at an offset of a frame. -/
def beAt (l : List Byte) (i n : Nat) : Nat := leNat ((l.drop i).take n).reverse

/-- The port's MAC address, byte 0 first. -/
def State.mac (s : State) (p : Bool) : List Byte :=
  leBytes 4 (s.fld (ethFld p F.ETH_MAC_LO_VAL)) ++ leBytes 2 (s.fld (ethFld p F.ETH_MAC_HI_MAC))

def vlanTagged (l : List Byte) : Bool := beAt l 12 2 == 0x8100
def typeOff (l : List Byte) : Nat := if vlanTagged l then 16 else 12
def etherType (l : List Byte) : Nat := beAt l (typeOff l) 2
def ptpType : Nat := 0x88F7
def safeType : Nat := 0xB62C

/-- A PTP event message: EtherType 0x88F7, messageType 0 to 3. -/
def ptpMsgType (l : List Byte) : Nat := beAt l (typeOff l + 2) 1 % 16
def ptpEvent (l : List Byte) : Bool :=
  decide (typeOff l + 2 < l.length) && etherType l == ptpType && decide (ptpMsgType l ≤ 3)

/-! ### Rings (R411) -/

/-- A ring entry's address, for the receive or the transmit ring. -/
def State.ringEntry (s : State) (p tx : Bool) (head : Nat) : Nat :=
  32 * (s.fld (ethFld p (if tx then F.ETH_TXBASE_ADDR else F.ETH_RXBASE_ADDR)) + head)

def State.ringSize (s : State) (p tx : Bool) : Nat :=
  s.fld (ethFld p (if tx then F.ETH_TXPTR_SIZE else F.ETH_RXPTR_SIZE))
def State.ringTail (s : State) (p tx : Bool) : Nat :=
  s.fld (ethFld p (if tx then F.ETH_TXPTR_TAIL else F.ETH_RXPTR_TAIL))
def State.ringHead (s : State) (p tx : Bool) : Nat :=
  if tx then (s.ethp (portNo p)).txHead else (s.ethp (portNo p)).rxHead

/-- HEAD one further; the port's vector. -/
def ringAdvance (p tx : Bool) (s : State) : State :=
  let n := portNo p
  let h := s.ringHead p tx + 1
  let h := if s.ringSize p tx ≤ h then 0 else h
  let s := s.setEthp n (if tx then { s.ethp n with txHead := h } else { s.ethp n with rxHead := h })
  let s := s.setFld (ethFld p (if tx then F.ETH_HEAD_TX_HEAD else F.ETH_HEAD_RX_HEAD)) h
  s.vector ((if tx then 18 else 16) + n)

/-! ### Safety slots (R413) -/

/-- The address of a slot within the slot memory of both ports. -/
def rxSlot (p : Bool) (k : Nat) : Nat := 0x800 * portNo p + 64 * k
def txSlot (p : Bool) (k : Nat) : Nat := 0x800 * portNo p + 0x400 + 64 * k

def State.slotByte (s : State) (a : Nat) : Byte := tget (fun _ => 0) s.mts.slots a
def State.setSlotByte (s : State) (a : Nat) (b : Byte) : State :=
  { s with mts := { s.mts with slots := tset (fun _ => 0) a b s.mts.slots } }
/-- FULL of a receive slot, GO of a transmit slot. -/
def State.slotFlag (s : State) (a : Nat) : Bool := (s.slotByte (a + 60)).getLsbD 0
def State.setSlotFlag (s : State) (a : Nat) (b : Bool) : State :=
  s.setSlotByte (a + 60) (if b then s.slotByte (a + 60) ||| 1 else s.slotByte (a + 60) &&& 0xFE)
def State.slotFrame (s : State) (a : Nat) : List Byte := (List.range 60).map (fun i => s.slotByte (a + i))
/-- A frame put into a slot, 60 bytes. -/
def State.fillSlot (s : State) (a : Nat) (l : List Byte) : State :=
  (forN 60 (fun i s => s.setSlotByte (a + i) (l.getD i 0)) s).setSlotFlag a true

/-- The lowest receive slot that is free, the lowest transmit slot that is free or has GO. -/
def State.freeRx (s : State) (p : Bool) : Option Nat :=
  (List.range 8).find? (fun k => !(s.slotFlag (rxSlot p k)))
def State.freeTx (s : State) (p : Bool) : Option Nat :=
  (List.range 2).find? (fun k => !(s.slotFlag (txSlot p k)))
def State.goTx (s : State) (p : Bool) : Option Nat :=
  (List.range 2).find? (fun k => s.slotFlag (txSlot p k))

/-! ### Receiving (R410, R411) -/

/-- Where a frame goes (Table 17.5). -/
inductive RxDest where
  | safety
  | ring
  | discard
  deriving DecidableEq, Repr

def ptpAddr1 : List Byte := [0x01, 0x1B, 0x19, 0, 0, 0]
def ptpAddr2 : List Byte := [0x01, 0x80, 0xC2, 0, 0, 0x0E]
def broadcast : List Byte := List.replicate 6 0xFF

def State.rxDest (s : State) (p : Bool) (l : List Byte) : RxDest :=
  let dst := l.take 6
  let own := dst == s.mac p
  if etherType l == safeType && !(vlanTagged l) && own then .safety
  else if etherType l == ptpType && (dst == ptpAddr1 || dst == ptpAddr2 || own) then .ring
  else if own || dst == broadcast then .ring
  else .discard

/-- A safety frame. -/
def rxSafety (p : Bool) (l : List Byte) (s : State) : State :=
  match s.freeRx p with
  | some k => if s.smEn then s.fillSlot (rxSlot p k) l else s.bump (ethFld p F.ETH_SAFE_SAFE_DROP) 1
  | none => s.bump (ethFld p F.ETH_SAFE_SAFE_DROP) 1

/-- FLAGS of a received frame. -/
def rxFlags (l : List Byte) : Nat :=
  1 + (if ptpEvent l then 2 else 0) + (if vlanTagged l then 8 else 0)

/-- The domain whose number a PTP message carries (R239): domain A first. -/
def State.ptpDomain (s : State) (l : List Byte) : Option Bool :=
  let d := beAt l (typeOff l + 6) 1
  if d = s.fld F.FFY_DOM_DOM_A then some false
  else if d = s.fld F.FFY_DOM_DOM_B then some true else none

/-- A Sync or peer-delay message of a port with PTP enabled is matched to its clock (R242). -/
def ptpMatch (p : Bool) (l : List Byte) (s : State) : State :=
  match s.ptpDomain l with
  | none => s
  | some b =>
    if ptpEvent l && ptpMsgType l != 1 && s.flagBit F.FFY_PTP_PTP_EN (portNo p) then
      peerRx b (BitVec.ofNat 80 (beAt l (typeOff l + 22) 10)) s
    else s

/-- A frame into the receive ring. -/
def rxRing (p : Bool) (l : List Byte) (s : State) : State :=
  let e := s.ringEntry p false (s.ringHead p false)
  if s.ringHead p false = s.ringTail p false ∨ !(inProgram e 32) then s.bump (ethFld p F.ETH_CNT_RX_DROP) 1
  else
    let buf := s.rdN e 8
    let s := s.checkRead e 8
    let ok := !(s.poisoned e 8) && rangeWritable buf l.length && buf % 8 == 0
    let s := if ok then s.store buf l else s
    let s := s.store (e + 8) (leBytes 2 l.length ++ leBytes 2 (rxFlags l))
    let s := if ptpEvent l then s.store (e + 16) (leBytes 8 s.ns) else s
    ringAdvance p false (ptpMatch p l s)

/-- The longest frame, with its FCS. -/
def rxMax (l : List Byte) : Nat := if vlanTagged l then 1522 else 1518

/-- The FCS of a frame, its last four bytes: the CRC-32 of IEEE 802.3 over the rest. -/
def fcsOf (l : List Byte) : List Byte := leBytes 4 (crc32 l).toNat
def stripFcs (l : List Byte) : List Byte := l.take (l.length - 4)
def fcsOk (l : List Byte) : Bool := decide (4 ≤ l.length) && l.drop (l.length - 4) == fcsOf (stripFcs l)

/-- A frame arrives, its FCS last: one that is too long is not accepted, and one whose FCS fails is
counted; the rest goes where Table 17.5 says, without its FCS (R410). -/
def ethRxFrame (p : Bool) (frame : List Byte) (s : State) : State :=
  let l := stripFcs frame
  if !(s.flag (ethFld p F.ETH_CTL_EN)) || !(s.flag (ethFld p F.ETH_CTL_LINK)) ||
      decide (rxMax frame < frame.length) then s
  else if !(fcsOk frame) then s.bump (ethFld p F.ETH_CNT_FCS_ERR) 1
  else if l.length < 14 then s
  else match s.rxDest p l with
    | .safety => rxSafety p l s
    | .ring => rxRing p l s
    | .discard => s

def execEthRxFrame (port : Bool) (frame : List Byte) (s : State) :
    Host.Outcome State Fault Refusal := .next (ethRxFrame port frame s)

/-! ### Sending (R411 to R413) -/

/-- A frame as it is sent: padded to 60 bytes, with its FCS (R412). -/
def sentFrame (l : List Byte) : List Byte :=
  let l := l ++ List.replicate (60 - l.length) 0
  l ++ fcsOf l

/-- A frame leaves the port. -/
def ethSend (p : Bool) (l : List Byte) (s : State) : State :=
  let n := portNo p
  s.setEthp n { s.ethp n with tx := sentFrame l :: (s.ethp n).tx }

/-- Whether a transmit entry's LEN and BUF let it be sent. -/
def State.txOk (s : State) (e : Nat) : Bool :=
  let buf := s.rdN e 8
  let len := s.rdN (e + 8) 2
  let vlan := (s.rdN (e + 10) 2).testBit 3
  decide (14 ≤ len) && decide (len ≤ if vlan then 1522 else 1518) && buf % 8 == 0 &&
    rangeReadable buf len && !(s.poisoned e 16) && !(s.poisoned buf len)

/-- The stamp of an event message sent (R241). -/
def txStamp (p : Bool) (l : List Byte) (domB : Bool) (s : State) : State :=
  let x : TxStamp :=
    { seqId := beAt l (typeOff l + 32) 2, msgType := ptpMsgType l, port := p, domB := domB, time := s.ns }
  { s with ffy := { s.ffy with stamps := s.ffy.stamps ++ [x] } }

/-- The transmit entry at HEAD. -/
def txEntry (p : Bool) (s : State) : State :=
  let e := s.ringEntry p true (s.ringHead p true)
  if !(inProgram e 32) then ringAdvance p true s
  else
    let buf := s.rdN e 8
    let len := s.rdN (e + 8) 2
    let fl := s.rdN (e + 10) 2
    let ok := s.txOk e && s.flag (ethFld p F.ETH_CTL_LINK)
    let s := s.checkRead e 16
    let s := if rangeReadable buf len && !(s.poisoned e 16) && s.flag (ethFld p F.ETH_CTL_LINK) then
        s.checkUpTo buf len else s
    let l := s.rdBytes buf len
    let s := if ok then ethSend p l s else s
    let s := if ok && fl.testBit 1 && ptpEvent l then txStamp p l (fl.testBit 2) s else s
    let fl := fl % 16 + (if ok then 0 else 16)
    let s := s.store (e + 10) (leBytes 2 (fl / 2 * 2 + 1))
    ringAdvance p true s

/-- ETH_TX_ENTRY: no safety frame is ready before it. -/
def ethTxEntry (p : Bool) (s : State) : State :=
  let link := s.flag (ethFld p F.ETH_CTL_LINK)
  if s.flag (ethFld p F.ETH_CTL_EN) && s.ringHead p true != s.ringTail p true &&
      !(link && (s.goTx p).isSome) then txEntry p s
  else s

def execEthTxEntry (port : Bool) (s : State) : Host.Outcome State Fault Refusal :=
  .next (ethTxEntry port s)

/-- A safety frame with GO is sent at the frame boundary. -/
def safetyFrameTx (p : Bool) (s : State) : State :=
  if s.flag (ethFld p F.ETH_CTL_EN) && s.flag (ethFld p F.ETH_CTL_LINK) then
    match s.goTx p with
    | none => s
    | some k => ethSend p (s.slotFrame (txSlot p k)) (s.setSlotFlag (txSlot p k) false)
  else s

def execSafetyFrameTx (port : Bool) (s : State) : Host.Outcome State Fault Refusal :=
  .next (safetyFrameTx port s)

/-! ### The link (R414) -/

/-- A port loses block lock. -/
def ethLink (p : Bool) (s : State) : State :=
  if s.flag (ethFld p F.ETH_CTL_LINK) then
    ((s.setFlag (ethFld p F.ETH_CTL_LINK) false).setFlag (ethFld p F.ETH_CTL_LINK_CHG) true).report 0x2E
      (portNo p)
  else s

def execEthLink (port : Bool) (s : State) : Host.Outcome State Fault Refusal := .next (ethLink port s)

/-- A port gains block lock. -/
def blockLock (p : Bool) (s : State) : State :=
  if s.flag (ethFld p F.ETH_CTL_LINK) then s
  else (s.setFlag (ethFld p F.ETH_CTL_LINK) true).setFlag (ethFld p F.ETH_CTL_LINK_CHG) true

def execBlockLock (port : Bool) (s : State) : Host.Outcome State Fault Refusal := .next (blockLock port s)

/-! ### The safety channel (R364 to R366) -/

/-- BS takes the command message of a full slot and frees the slot. -/
def takeSafety (p : Bool) (k : Nat) (s : State) : State :=
  let a := rxSlot p k
  if s.smRuns && s.slotFlag a then
    safetyMsgRx p ((s.slotFrame a).drop 14 |>.take 16) (s.setSlotFlag a false)
  else s

def execSafetyMsgRx (port : Bool) (slot : Fin 8) (s : State) : Host.Outcome State Fault Refusal :=
  .next (takeSafety port slot.val s)

/-- The frame of a status message. -/
def statusFrame (s : State) (p : Bool) : List Byte :=
  leBytes 6 Config.smDest.toNat ++ s.mac p ++ [0xB6, 0x2C] ++ statusMsg s

/-- BS sends a status message on both ports (R366). -/
def statusMsgSend (s : State) : State :=
  if s.smRuns then
    let put := fun (p : Bool) (t : State) =>
      match t.freeTx p with
      | none => t
      | some k => t.fillSlot (txSlot p k) (statusFrame s p)
    let t := put true (put false s)
    { t with mts := { t.mts with smSeqTx := t.mts.smSeqTx + 1 } }
  else s

def execStatusMsgSend (s : State) : Host.Outcome State Fault Refusal := .next (statusMsgSend s)

end Sys2Proof.Machine
end

