-- ==== Sys2Proof/Machine/Faults.lean ====
section
/-!
DEFINITION. Cell fault records (R112, R113, R115, R116) and the settings of the SWM block in effect
(R57).
-/

namespace Sys2Proof.Machine

/-- A field of arm n's engine, as in effect since the last admission point (R57, R91). -/
def State.swm (s : State) (n : Nat) (x : Fld) : Nat := s.effFld (x.up (0x4000 * n))

/-- Slots in use on an arm. -/
def State.nSlots (s : State) (n : Nat) : Nat := s.swm n F.SWM_CFG_N_SLOTS

/-- SWM_HOLD.HOLD_US as in effect: 8 to 64 (Table 4.11). -/
def State.holdUs (s : State) : Nat := max 8 (min 64 (s.effFld F.SWM_HOLD_HOLD_US))

/-- A field of the fault record of a cell (R118). -/
def cfFld (id : Nat) (x : Fld) : Fld := x.up (4 * id)

/-- Whether a cell's fault record is active (R112). -/
def State.cfActive (s : State) (id : Nat) : Bool := s.flag (cfFld id F.SWM_CF_ACTIVE)

/-- Whether a slot is held in Permanent bypass (R93). -/
def State.cfPerm (s : State) (id : Nat) : Bool := s.cfActive id && s.flag (cfFld id F.SWM_CF_PERM)

def codeBlocked : Nat := 0
def codeBypassed : Nat := 1
def codeInserted : Nat := 2
def codeNegative : Nat := 3
def codePermanent : Nat := 4

/-- The held state SWM_FESC gives a fault code (R112). -/
def State.heldOf (s : State) (code : Nat) : Nat :=
  if (s.effFld F.SWM_FESC_PBY_MASK).testBit code then codePermanent else codeBypassed

/-- A new cell fault: the record takes the code, the held state and the source, its count rises, a
pending clear is cancelled, and CELL_FAULT is reported. An active record with PERM keeps it (R93,
R112). -/
def State.cellFaultMade (s : State) (id code held : Nat) (device : Bool) : State :=
  let perm := s.cfPerm id || held == codePermanent
  let s := s.setFld (cfFld id F.SWM_CF_CODE) code
  let s := s.setFld (cfFld id F.SWM_CF_HELD) (if perm then codePermanent else held)
  let s := s.setFlag (cfFld id F.SWM_CF_ACTIVE) true
  let s := s.setFlag (cfFld id F.SWM_CF_PERM) perm
  let s := s.setFlag (cfFld id F.SWM_CF_SRC) device
  let s := s.setFlag (cfFld id F.SWM_CF_CLR) false
  let s := s.bump (cfFld id F.SWM_CF_COUNT) 1
  s.report 0x0A (id + 0x2000 * code)

/-- A new cell fault; a module that follows a mirror raises none of its own (R339). -/
def State.cellFault (s : State) (id code held : Nat) (device : Bool) : State :=
  if s.role == roleStandby || s.role == roleArming then s else s.cellFaultMade id code held device

/-- A fault by a cell's report or by one of the device's checks: no new fault while an active record
holds the same code. -/
def State.cellFaultSeen (s : State) (id code : Nat) (device : Bool) : State :=
  if s.cfActive id && s.fld (cfFld id F.SWM_CF_CODE) == code then s
  else s.cellFault id code (s.heldOf code) device

/-- A CLR request: kept until the next admission point; ignored on an inactive record, and on a
record with PERM outside Blocked and Servicing (R113). -/
def clrRequest (id : Nat) (s : State) : State :=
  if !(s.cfActive id) then s
  else if s.cfPerm id && !s.quiet then s
  else s.setFlag (cfFld id F.SWM_CF_CLR) true

def execClr (arm : Arm) (slot : Slot) (s : State) : Host.Outcome State Fault Refusal :=
  .next (clrRequest (cellId arm slot) s)

/-- The clear requests take effect at an admission point (R113). -/
def State.applyClr (s : State) (id : Nat) : State :=
  if s.flag (cfFld id F.SWM_CF_CLR) then
    ((s.setFlag (cfFld id F.SWM_CF_CLR) false).setFlag (cfFld id F.SWM_CF_ACTIVE) false).setFlag
      (cfFld id F.SWM_CF_PERM) false
  else s

/-! ### The reflex decision (Table 4.8) -/

def kindGrantByp : Nat := 8
def kindGrantPby : Nat := 9
def kindDeny : Nat := 10
def kindAck : Nat := 11

/-- Whether a BYPASS_REQ of an arm is granted (Table 4.8). -/
def State.bypassGranted (s : State) (n : Nat) : Bool :=
  s.effFld F.SWM_RFX_EN == 1 &&
  decide ((s.arm n).grants < s.effFld F.SWM_RFX_REFLEX_MAX) &&
  !(s.flag F.MTS_STAT_BLOCK_ALL) && s.opState != stTripped

/-- The answer's KIND to a request of an arm (Tables 4.8 and 8.7). -/
def State.answerKind (s : State) (n : Nat) : Request → Nat
  | .bypass => if s.bypassGranted n then kindGrantByp else kindDeny
  | .pbyp => kindGrantPby
  | .selfBlocked => kindAck

/-- The held state that goes with an answer (R116). -/
def State.answerHeld (s : State) (kind code : Nat) : Nat :=
  if kind = kindGrantByp then codeBypassed
  else if kind = kindGrantPby then codePermanent
  else s.heldOf code

/-- A reflex word without BLK and RCRC (Table 8.6). -/
def rfxWord (kind fault lslot rid : Nat) : Word :=
  BitVec.ofNat 32 (kind % 16 * 2 ^ 28 + fault % 16 * 2 ^ 24 + lslot % 128 * 2 ^ 17 + rid % 16 * 2 ^ 8)

/-- A request decided: the answer waits for a carrier of the lane, the grants of the arm and the
answer counters move, and the cell's fault record is made (R115, R116). -/
def State.reflex (s : State) (n lane lslot fault rid : Nat) (r : Request) : State :=
  let kind := s.answerKind n r
  let held := s.answerHeld kind fault
  let x := s.lane n lane
  let s := s.setLane n lane { x with answers := x.answers ++ [rfxWord kind 0 lslot rid] }
  let a := s.arm n
  let s := if kind = kindGrantByp then s.setArm n { a with grants := a.grants + 1 } else s
  let s := if kind = kindDeny then s.bump (F.SWM_RCNT_RFX_DENY.up (0x20 * n)) 1
    else s.bump (F.SWM_ECNT_RFX_GRANT.up (0x20 * n)) 1
  s.cellFault (cellId n (128 * lane + lslot)) fault held false

end Sys2Proof.Machine
end

