-- ==== Sys2Proof/Machine/Line.lean ====
section
/-!
DEFINITION. The line code of a data lane (R179 to R182): the self-synchronising scrambler and
descrambler, and bit stuffing after every run of 24 equal bits.
-/

namespace Sys2Proof.Machine

/-- The scrambler's history with one more scrambled bit, the newest in bit 0. -/
def scrPush (h : BitVec 58) (b : Bool) : BitVec 58 := (h <<< 1) ||| (BitVec.ofBool b).setWidth 58

/-- s(n−39) ⊕ s(n−58) (R180). -/
def scrTaps (h : BitVec 58) : Bool := xor (h.getLsbD 38) (h.getLsbD 57)

/-- Scrambling: s(n) = d(n) ⊕ s(n−39) ⊕ s(n−58) (R180). -/
def scramble (h : BitVec 58) : List Bool → List Bool × BitVec 58
  | [] => ([], h)
  | d :: r =>
    let b := xor d (scrTaps h)
    let q := scramble (scrPush h b) r
    (b :: q.1, q.2)

/-- Descrambling: d(n) = s(n) ⊕ s(n−39) ⊕ s(n−58) (R180). -/
def descramble (h : BitVec 58) : List Bool → List Bool × BitVec 58
  | [] => ([], h)
  | b :: r =>
    let q := descramble (scrPush h b) r
    (xor b (scrTaps h) :: q.1, q.2)

/-- The length of the run a bit makes: 1 at the start of a run (R181). -/
def runNext (run : Nat) (runBit b : Bool) : Nat := if run != 0 && (b == runBit) then run + 1 else 1

/-- The longest run without a stuff bit (R181). -/
def maxRun : Nat := 24

/-- Stuffing: after 24 equal bits the next line bit is the complement of the run, and the count
restarts (R181). The second component is the run and its bit. -/
def stuff (run : Nat) (runBit : Bool) : List Bool → List Bool × (Nat × Bool)
  | [] => ([], (run, runBit))
  | b :: r =>
    if runNext run runBit b = maxRun then
      let q := stuff 0 b r
      (b :: (!b) :: q.1, q.2)
    else
      let q := stuff (runNext run runBit b) b r
      (b :: q.1, q.2)

/-- Destuffing: the bit after every run of 24 is removed; it is a stuffing violation when it equals
the run, and the count restarts (R182). The second component is, for each violation, how many line bits
come after it; the third the run and its bit. -/
def destuff (run : Nat) (runBit : Bool) : List Bool → List Bool × List Nat × (Nat × Bool)
  | [] => ([], [], (run, runBit))
  | b :: r =>
    if run = maxRun then
      let q := destuff 0 b r
      (q.1, if b == runBit then r.length :: q.2.1 else q.2.1, q.2.2)
    else
      let q := destuff (runNext run runBit b) b r
      (b :: q.1, q.2.1, q.2.2)

/-- How many line bits come after the `k`-th of the bits that destuffing leaves. -/
def lineAfter (run : Nat) (runBit : Bool) : Nat → List Bool → Nat
  | _, [] => 0
  | k, b :: r =>
    if run = maxRun then lineAfter 0 b k r
    else if k ≤ 1 then r.length
    else lineAfter (runNext run runBit b) b (k - 1) r

/-- One UI, ps (R177). -/
def uiPs : Nat := 80

/-- Bits received whose descrambled value is not valid: those before the 59th of the stream (R180). -/
def RxSt.skip (r : RxSt) : Nat := 58 - r.got

/-- Line bits received, the last of them at an instant: destuffed, then descrambled (R179, R180, R182). -/
def RxSt.take (r : RxSt) (now : Nat) (line : List Bool) : List Bool × RxSt :=
  let d := destuff r.run r.runBit line
  let q := descramble r.scr d.1
  (q.1, { scr := q.2, got := min 58 (r.got + d.1.length), run := d.2.2.1, runBit := d.2.2.2
          viols := ((d.2.1.map (fun k => now - uiPs * k)).reverse ++ r.viols).take 16 })

/-- The stuffing violations among line bits (R182). -/
def RxSt.violations (r : RxSt) (line : List Bool) : Nat := (destuff r.run r.runBit line).2.1.length

/-- Whether the last 16 violations lie within 1,000 ns (R192). -/
def RxSt.violLimit (r : RxSt) : Bool :=
  r.viols.length == 16 && decide (r.viols.headD 0 ≤ r.viols.getLastD 0 + 1000000)

/-- Where a sync word first stands in a stream of bits (R206), with the last bits before it as a window. -/
def syncFrom (word win : BitVec 64) (k : Nat) : List Bool → Option Nat
  | [] => none
  | b :: r =>
    let w := (win <<< 1) ||| (BitVec.ofBool b).setWidth 64
    if 64 ≤ k + 1 && w == word then some (k + 1 - 64) else syncFrom word w (k + 1) r

/-- The number that bits spell, the most significant first. -/
def msbNat (l : List Bool) : Nat := l.foldl (fun a b => 2 * a + (if b then 1 else 0)) 0

/-- `w` bits from position `p` on, as a number. -/
def bitsAt (l : List Bool) (p w : Nat) : Nat := msbNat ((l.drop p).take w)

/-- Bits sent on a lane: scrambled, then stuffed (R179). -/
def TxSt.send (t : TxSt) (bits : List Bool) : TxSt :=
  let q := scramble t.scr bits
  let p := stuff t.run t.runBit q.1
  { scr := q.2, run := p.2.1, runBit := p.2.2, line := p.1 }

/-- Zero bits sent until the line has carried `room` bits, or one more with a stuff bit (R207): the
transmitter after them, and the line bits in order. `owed`: a stuff bit has taken one of them. -/
def TxSt.zeros (t : TxSt) (owed : Bool) : Nat → TxSt × List Bool
  | 0 => (t, [])
  | room + 1 =>
    if owed then t.zeros false room
    else
      let u := t.send [false]
      let q := u.zeros (u.line.length == 2) room
      (q.1, u.line ++ q.2)

/-- Constant 0 sent unstuffed in place of the bits (impairment DEAD, Table 7.4). -/
def TxSt.dead (t : TxSt) (bits : List Bool) : TxSt :=
  { t.send bits with line := bits.map (fun _ => false) }

end Sys2Proof.Machine
end

