-- ==== Sys2Proof/Machine/Lanes.lean ====
section
/-!
DEFINITION. Dragonfly's lanes (chapter 7): equalisation tables, blind bring-up, loss of lock and
relock, the eye scan, and the arming of impairment injection.
-/

namespace Sys2Proof.Machine

/-! ### Registers and phases -/

/-- A field of a port, and of a lane of a port (R203, R232). -/
def portFld (p : Nat) (x : Fld) : Fld := x.up (0x2000 * p)
def laneFld (p l : Nat) (x : Fld) : Fld := x.up (0x2000 * p + 0x20 * l)

/-- CK's number among the lanes of a port, and port T's number. -/
def ckLane : Nat := 8
def portT : Nat := 6

/-- The data lanes of a port: D0 to D7, or D0 to D3 on port T (R203). -/
def dataLanes (p : Nat) : List Nat := if p = portT then List.range 4 else List.range 8

/-- Every lane of a port. -/
def allLanes (p : Nat) : List Nat := dataLanes p ++ [ckLane]

/-- Whether a port has a data lane of that number. -/
def hasLane (p l : Nat) : Bool := (dataLanes p).contains l

def phOff : Nat := 0
def phClock : Nat := 1
def phPhase : Nat := 2
def phAlign : Nat := 3
def phHandshake : Nat := 4
def phFrame : Nat := 5
def phLocked : Nat := 6
def phFailed : Nat := 7

def State.phase (s : State) (p l : Nat) : Nat := s.fld (laneFld p l F.DFY_LSTAT_PHASE)
def State.laneLocked (s : State) (p l : Nat) : Bool := s.phase p l == phLocked
def State.laneUsable (s : State) (p l : Nat) : Bool := s.flag (laneFld p l F.DFY_LSTAT_USABLE)

/-- Whether a lane sends and receives the scrambled stream. -/
def State.streams (s : State) (p l : Nat) : Bool :=
  s.phase p l == phFrame || s.phase p l == phLocked

/-- DETAIL of a lane's report: the port in [2:0], the lane in [6:3] (Table 15.6). -/
def laneDetail (p l : Nat) : Nat := p + 8 * l

/-- The training patterns (R186): one byte in every 8-bit group, bit 7 first. TP_A says that the receiver
is not yet aligned, TP_B that it is. -/
def tpA : Byte := 0xF0
def tpB : Byte := 0xE8

/-- The line bits of each group that a data lane sends in a phase without the scrambled stream, neither
scrambled nor stuffed; an idle lane sends none (R179, R186, Table 7.2). -/
def phaseLine (ph : Nat) : List Bool :=
  if ph = phOff then [] else bitsMsb 8 (if ph = phHandshake then tpB else tpA).toNat

/-- Whether a frame has been begun and not yet sent whole (R193). -/
def LaneSt.sending (x : LaneSt) : Bool :=
  match x.frame with
  | none => false
  | some f => decide (0 < x.sent) && decide (x.sent ≤ f.slots.length)

/-- What a lane sends in its phase follows at once, but for a frame in progress. While the outputs are gated
it sends nothing, and a frame in progress ends there (R187, R193, R238) (DEDUCED: assumption 41). -/
def State.phaseSend (s : State) (p l : Nat) : State :=
  let x := s.lane p l
  let ph := s.phase p l
  let held := ph == phFrame || ph == phLocked || x.sending || l == ckLane
  if s.flag F.FFY_STAT_GATED then s.setLane p l { x with frame := none, sent := 0, tx := { x.tx with line := [] } }
  else s.setLane p l { x with tx := { x.tx with line := if held then x.tx.line else phaseLine ph } }

/-- A lane enters a phase. -/
def State.enter (s : State) (p l ph : Nat) : State :=
  let s := s.setFld (laneFld p l F.DFY_LSTAT_PHASE) ph
  (s.setLane p l { s.lane p l with
    phaseAt := s.now, frameSweeps := 0, goodFrames := 0, bad := 0 }).phaseSend p l

/-- The outputs of all lanes are gated, or released (R238). -/
def State.lanesGate (s : State) : State :=
  forN 7 (fun p s => forL (allLanes p) (fun l s => s.phaseSend p l) s) s

/-- The attempts before FAILED: 0 acts as 1 (Table 7.6). -/
def State.attempts (s : State) : Nat := max 1 (s.fld F.DFY_BUCFG_ATTEMPTS)

/-- EYE_MIN: above 48 acts as 48, 0 as 1 (Table 7.6). -/
def State.eyeMin (s : State) : Nat := max 1 (min 48 (s.fld F.DFY_BUCFG_EYE_MIN))

/-- The port's part of the switching set follows its lanes: it becomes complete when every data lane
is USABLE and CK LOCKED, and stays so while exactly one data lane is not (R31, R195). -/
def State.portSet (s : State) (p : Nat) : State :=
  let bad := ((dataLanes p).filter (fun l => !(s.laneUsable p l))).length
  let ck := s.laneLocked p ckLane
  let i := s.imp p
  if ck && bad == 0 then s.setImp p { i with setOk := true }
  else if !ck || decide (1 < bad) then s.setImp p { i with setOk := false }
  else s

/-- The single-lane exception in force (R195). -/
def State.degraded (s : State) (p : Nat) : Bool :=
  p != portT && (s.imp p).setOk && (dataLanes p).any (fun l => !(s.laneUsable p l))

/-- DFY_PSTAT as read: LOCKED, UP and DEGRADED are formed from the lanes (Table 7.7). -/
def State.dfyPstat (s : State) (p : Nat) : Word :=
  let v := s.reg (R.DFY_PSTAT + 0x2000 * p)
  let locked := (allLanes p).foldl (fun a l => if s.laneLocked p l then a + 2 ^ l else a) 0
  let v := putBits v F.DFY_PSTAT_LOCKED.lo 9 locked
  let v := putBits v F.DFY_PSTAT_UP.lo 1 (if (allLanes p).all (s.laneLocked p) then 1 else 0)
  putBits v F.DFY_PSTAT_DEGRADED.lo 1 (if s.degraded p then 1 else 0)

/-- Credits of a lane go to 0 while it is not LOCKED (R222). -/
def State.noCredits (s : State) (p l : Nat) : State :=
  let s := s.setFld (laneFld p l F.DFY_CREDIT_MGMT_BUF) 0
  let s := s.setFld (laneFld p l F.DFY_CREDIT_AVAIL) 0
  let s := s.setFld (laneFld p l F.DFY_CREDIT_OUTST) 0
  s.setFlag (laneFld p l F.DFY_CREDIT_ID_OK) false

/-- A scan that runs when its lane leaves LOCKED ends with REJ set and DONE clear (R198). -/
def State.scanLost (s : State) (p l : Nat) : State :=
  let x := s.lane p l
  match x.scan with
  | none => s
  | some _ =>
    let s := s.setLane p l { x with scan := none }
    let s := s.setFlag (laneFld p l F.DFY_ESCTL_START) false
    let s := s.setFlag (laneFld p l F.DFY_ESCTL_DONE) false
    s.setFlag (laneFld p l F.DFY_ESCTL_REJ) true

/-- What a data lane forgets when it leaves the scrambled stream: nothing received enters any unit,
units outstanding count as lost, pending answers and requests end, and so does a requalification with the
samples it has taken (R193, R196, R217, R222). The frame in progress is still completed (R193). -/
def State.laneClear (s : State) (p l : Nat) : State :=
  let s := s.scanLost p l
  let x := s.lane p l
  let s := s.setLane p l { x with
    requal := false, answers := [], frames := [], chunks := [], asked := [], units := [], echoes := []
    early := [], framed := false }
  let base := 8192 + 1024 * p + 128 * l
  let s := if p = portT then s else { s with dcal := { s.dcal with
    cells := s.dcal.cells.filter (fun c => decide (c.1 < base) || decide (base + 128 ≤ c.1)) } }
  let s := s.setFlag (laneFld p l F.DFY_LSTAT_USABLE) false
  let s := s.setFlag (laneFld p l F.DFY_LSTAT_REQUAL) false
  if p = portT then s else s.noCredits p l

/-- The same for a lane of any kind: CK holds nothing. -/
def State.laneDrop (s : State) (p l : Nat) : State :=
  if l = ckLane then s else s.laneClear p l

/-! ### Equalisation tables (R183 to R185) -/

/-- An entry's number in the table (R183). -/
def eqIndex (p l : Nat) : Nat := if p = portT then (if l = ckLane then 58 else 54 + l) else 9 * p + l

/-- Whether an entry is a CK lane's. -/
def eqIsCk (i : Nat) : Bool := i == 58 || (decide (i < 54) && i % 9 == 8)

/-- The eight bytes of an entry. -/
def eqOf (b : List Byte) : EqEntry :=
  { main := (b.getD 0 0).toNat, pre := (b.getD 1 0).toNat, post := (b.getD 2 0).toNat
    ctle := (b.getD 3 0).toNat, dfe1 := (b.getD 4 0).toInt, flags := (b.getD 5 0).toNat }

/-- The first check an entry fails: 3 range, 4 de-emphasis beyond the swing, 5 reserved, 0 none. -/
def eqErr (i : Nat) (b : List Byte) : Nat :=
  let e := eqOf b
  if decide (63 < e.main) || decide (15 < e.pre) || decide (31 < e.post) || decide (15 < e.ctle) ||
      decide (e.dfe1 < -31) || decide (31 < e.dfe1) || (eqIsCk i && e.dfe1 != 0) then 3
  else if decide (e.main < e.pre + e.post) then 4
  else if decide (3 < e.flags) || b.getD 6 0 != 0 || b.getD 7 0 != 0 then 5
  else 0

/-- The first failing entry of a table's 59, with its code. -/
def eqFirst (tbl : List Byte) : Option (Nat × Nat) :=
  ((List.range 59).map (fun i => (i, eqErr i ((tbl.drop (16 + 8 * i)).take 8)))).find?
    (fun x => x.2 != 0)

/-- The check of a table (R184): code and entry, 0 when it is accepted. Where several checks fail, the first
in this order gives the code (DESIGN CHOICE: assumption 47). -/
def State.eqCheck (s : State) (a : Nat) : Nat × Nat :=
  let tbl := s.rdBytes a 488
  if a % 16 != 0 || decide (0x02000000 < a + 488) then (7, 0)
  else if s.poisoned a 488 then (6, 0)
  else if leNat ((tbl.drop 4).take 2) != 59 then (1, 0)
  else if crc32 (tbl.drop 16) != BitVec.ofNat 32 (leNat ((tbl.drop 8).take 4)) then (2, 0)
  else if (((tbl.drop 6).take 2) ++ ((tbl.drop 12).take 4)).any (· != 0) then (5, 0)
  else match eqFirst tbl with
    | some (i, c) => (c, i)
    | none => (0, 0)

/-- DFY_EQ_CTL.LOAD (R184). -/
def eqLoad (s : State) : State :=
  let a := s.fld F.DFY_EQ_ADDR_ADDR
  let e := s.eqCheck a
  let s := if e.1 = 7 then s else s.checkRead a 488
  let s := s.setFld F.DFY_EQ_CTL_ERR e.1
  let s := s.setFld F.DFY_EQ_CTL_ERR_ENTRY e.2
  if e.1 = 0 then
    let tbl := s.rdBytes a 488
    let entries := (List.range 59).foldl
      (fun t i => tset (fun _ => {}) i (eqOf ((tbl.drop (16 + 8 * i)).take 8)) t) ([] : Tab EqEntry)
    let s := { s with dfy := { s.dfy with eq := entries } }
    let s := (s.setFlag F.DFY_EQ_CTL_DONE true).setFlag F.DFY_EQ_CTL_DEFAULT false
    (s.setFld F.DFY_EQ_STAT_VER (leNat (tbl.take 2))).setFld F.DFY_EQ_STAT_BOARD_ID
      (leNat ((tbl.drop 2).take 2))
  else s

def execEqLoad (s : State) : Host.Outcome State Fault Refusal := .next (eqLoad s)

/-! ### Bring-up (R186 to R190) -/

/-- Every lane of the port enters CLOCK with an attempt number and takes its settings from the table
in force (R185, R187, R188). -/
def State.enterClock (s : State) (p attempt : Nat) : State :=
  forL (allLanes p) (fun l s =>
    let s := s.setFld (laneFld p l F.DFY_LSTAT_ATTEMPT) attempt
    let s := s.enter p l phClock
    s.setLane p l { s.lane p l with eq := tget (fun _ => {}) s.dfy.eq (eqIndex p l) }) s

/-- BRINGUP and DOWN of an arm port need Blocked or Servicing (R189). -/
def State.mayTrain (s : State) (p : Nat) : Bool := p == portT || s.quiet

/-- The frame that a lane was sending is given up. -/
def State.frameDrop (s : State) (p l : Nat) : State :=
  s.setLane p l { s.lane p l with frame := none, sent := 0, held := none, heldBeat := [] }

/-- A lane as BRINGUP and DOWN leave it before its new phase: it sends what that phase sends (R189). -/
def State.laneReset (s : State) (p l : Nat) : State :=
  let s := (s.laneDrop p l).frameDrop p l
  s.setLane p l { s.lane p l with relocked := false, barred := false }

/-- DFY_PCTL.BRINGUP: every lane of the port starts at CLOCK (R189). -/
def bringup (p : Nat) (s : State) : State :=
  if s.mayTrain p then
    ((forL (allLanes p) (fun l s => s.laneReset p l) s).enterClock p 1).portSet p
  else s.rejWrite (R.DFY_PCTL + 0x2000 * p)

/-- DFY_PCTL.DOWN: every lane of the port returns to OFF (R189). -/
def down (p : Nat) (s : State) : State :=
  if s.mayTrain p then
    (forL (allLanes p) (fun l s =>
      ((s.laneReset p l).setFld (laneFld p l F.DFY_LSTAT_ATTEMPT) 0).enter p l phOff) s).portSet p
  else s.rejWrite (R.DFY_PCTL + 0x2000 * p)

def execBringup (src : Src) (p : Port) (s : State) : Host.Outcome State Fault Refusal :=
  match src with
  | _ => .next (bringup p s)

def execDown (src : Src) (p : Port) (s : State) : Host.Outcome State Fault Refusal :=
  match src with
  | _ => .next (down p s)

/-- A lane is FAILED because its attempts are used up: BU_FAIL is set and LANE_BU_FAIL reported
(R188). -/
def State.buFail (s : State) (p l : Nat) : State :=
  (s.setFlag (portFld p F.DFY_PSTAT_BU_FAIL) true).report 0x15 (laneDetail p l)

/-- CLOCK exits: CK is LOCKED, and every data lane enters PHASE (R187). -/
def clockDone (p : Nat) (s : State) : State :=
  if s.phase p ckLane = phClock && !(s.flag F.FFY_STAT_GATED) then
    let s := s.reach (max (s.lane p ckLane).phaseAt s.ffy.releasedAt + 10 * psUs)
    let s := s.enter p ckLane phLocked
    (forL (dataLanes p) (fun l s => s.enter p l phPhase) s).portSet p
  else s

/-- CLOCK does not exit in 1,000 µs: the port repeats it, or its lanes enter FAILED (R188). -/
def clockTimeout (p : Nat) (s : State) : State :=
  if s.phase p ckLane = phClock then
    let s := s.reach ((s.lane p ckLane).phaseAt + 1000 * psUs)
    let n := s.fld (laneFld p ckLane F.DFY_LSTAT_ATTEMPT)
    if n < s.attempts then s.enterClock p (n + 1)
    else ((forL (allLanes p) (fun l s => s.enter p l phFailed) s).buFail p ckLane).portSet p
  else s

def execClockDone (p : Port) (s : State) : Host.Outcome State Fault Refusal := .next (clockDone p s)
def execClockTimeout (p : Port) (s : State) : Host.Outcome State Fault Refusal :=
  .next (clockTimeout p s)

/-- A phase of a data lane times out: the lane repeats from PHASE, or enters FAILED when the attempt
was the last (R188). -/
def State.phaseTimeout (s : State) (p l : Nat) : State :=
  let n := s.fld (laneFld p l F.DFY_LSTAT_ATTEMPT)
  let s := (s.laneClear p l).frameDrop p l
  if n < s.attempts then
    (s.setFld (laneFld p l F.DFY_LSTAT_ATTEMPT) (n + 1)).enter p l phPhase
  else ((s.enter p l phFailed).buFail p l).portSet p

/-- A timeout of a phase with a limit of its own. -/
def laneTimeout (p l ph us : Nat) (s : State) : State :=
  if s.phase p l = ph && hasLane p l then
    (s.reach ((s.lane p l).phaseAt + us * psUs)).phaseTimeout p l
  else s

/-- The number of passing steps from step `a` on, cyclically (R435). -/
def runFrom (pass : BitVec 64) (a : Nat) : Nat :=
  ((List.range 64).takeWhile (fun i => pass.getLsbD ((a + i) % 64))).length

/-- The longest cyclic run of passing steps: its first step and its length, the lowest first step on
a tie (R435). -/
def bestRun (pass : BitVec 64) : Nat × Nat :=
  (List.range 64).foldl (fun b a => if b.2 < runFrom pass a then (a, runFrom pass a) else b) (0, 0)

/-- PHASE exits: the centre and the width are reported, and the lane enters ALIGN (R187, R435). -/
def phaseDone (p l : Nat) (pass : BitVec 64) (s : State) : State :=
  let r := bestRun pass
  if s.phase p l = phPhase && hasLane p l && decide (s.eyeMin ≤ r.2) then
    let s := s.setFld (laneFld p l F.DFY_LPH_CENTRE) ((r.1 + (r.2 - 1) / 2) % 64)
    let s := s.setFld (laneFld p l F.DFY_LPH_EYE_W) (min 63 r.2)
    let s := s.setFldS (laneFld p l F.DFY_LPH_TRACK) 0
    s.enter p l phAlign
  else s

def execPhaseDone (p : Port) (lane : DLane) (pass : BitVec 64) (s : State) :
    Host.Outcome State Fault Refusal := .next (phaseDone p lane pass s)
def execPhaseTimeout (p : Port) (lane : DLane) (s : State) : Host.Outcome State Fault Refusal :=
  .next (laneTimeout p lane phPhase 50 s)

/-- ALIGN exits after a number of bit slips (R187). -/
def alignDone (p l slips : Nat) (s : State) : State :=
  if s.phase p l = phAlign && hasLane p l then
    (s.setFld (laneFld p l F.DFY_LSTAT_SLIPS) slips).enter p l phHandshake
  else s

def execAlignDone (p : Port) (lane : DLane) (slips : Fin 8) (s : State) :
    Host.Outcome State Fault Refusal := .next (alignDone p lane slips s)
def execAlignTimeout (p : Port) (lane : DLane) (s : State) : Host.Outcome State Fault Refusal :=
  .next (laneTimeout p lane phAlign 20 s)

/-- HANDSHAKE exits: the scrambled stream starts in both directions, with no frame yet; the scrambler goes on
from where it stands (R180, R187, R434). The stuffer's run starts at 0 (DESIGN CHOICE: assumption 306). -/
def handshakeDone (p l : Nat) (s : State) : State :=
  if s.phase p l = phHandshake && hasLane p l then
    let s := (s.enter p l phFrame).frameDrop p l
    let x := s.lane p l
    s.setLane p l { x with tx := { x.tx with run := 0 }, txAt := s.now, rx := {}, trackAt := s.now }
  else s

def execHandshakeDone (p : Port) (lane : DLane) (s : State) : Host.Outcome State Fault Refusal :=
  .next (handshakeDone p lane s)
def execHandshakeTimeout (p : Port) (lane : DLane) (s : State) :
    Host.Outcome State Fault Refusal := .next (laneTimeout p lane phHandshake 1000 s)

/-- Successive valid upstream frames that end FRAME, and the sweeps FRAME may take (Table 7.2). -/
def framesToLock : Nat := 3
def frameSweepLimit : Nat := 32

/-- A lane becomes LOCKED: credits start at one buffer (R222); it is USABLE at once, unless it has been relocked
outside Blocked and Servicing, which starts requalification, or a requalification has failed since BRINGUP
(R196). A data lane of port T is USABLE at once always (DESIGN CHOICE: assumption 306). -/
def frameDone (p l : Nat) (s : State) : State :=
  if s.phase p l = phFrame && hasLane p l && decide (framesToLock ≤ (s.lane p l).goodFrames) then
    let s := s.enter p l phLocked
    let x := s.lane p l
    let requal := x.relocked && !s.quiet && p != portT
    let s := s.setLane p l { x with
      trackAt := s.now, requal := requal, chunks := [], asked := [], units := [], echoes := [] }
    let s := s.setFlag (laneFld p l F.DFY_LSTAT_USABLE) (!requal && !x.barred)
    let s := if p = portT then s else
      ((s.noCredits p l).setFld (laneFld p l F.DFY_CREDIT_MGMT_BUF) 1).setFld
        (laneFld p l F.DFY_CREDIT_AVAIL) 1
    s.portSet p
  else s

/-- FRAME does not exit within 32 sweeps that release frames (Table 7.2, R434). -/
def frameTimeout (p l : Nat) (s : State) : State :=
  if s.phase p l = phFrame && hasLane p l && decide (frameSweepLimit ≤ (s.lane p l).frameSweeps) then
    s.phaseTimeout p l
  else s

def execFrameDone (p : Port) (lane : DLane) (s : State) : Host.Outcome State Fault Refusal :=
  .next (frameDone p lane s)
def execFrameTimeout (p : Port) (lane : DLane) (s : State) : Host.Outcome State Fault Refusal :=
  .next (frameTimeout p lane s)

/-! ### Loss of lock (R191 to R196) -/

/-- A lane leaves LOCKED by loss of lock: flags, counter and report of R193. A data lane that reaches LOCKED
again before a BRINGUP is a relocked one, also when it waits in FAILED in between (R192, R196). -/
def State.lose (s : State) (p l : Nat) : State :=
  let s := if l = ckLane then s else s.setLane p l { s.lane p l with relocked := true }
  let s := s.setFlag (laneFld p l F.DFY_LSTAT_LOL) true
  let s := s.setFlag (portFld p F.DFY_PSTAT_LOL) true
  let s := if l = ckLane then s else s.bump (laneFld p l F.DFY_LERR_LOL_CNT) 1
  (s.laneDrop p l).report 0x14 (laneDetail p l)

/-- Whether the condition of a loss of lock holds (R192). Port T's frames are the beats of chapter 14. -/
def State.lolHolds (s : State) (p l : Nat) : LolCause → Bool
  | .stuffing => (s.lane p l).rx.violLimit
  | .frames => decide (2 ≤ (s.lane p l).bad)
  | .tracker => s.fldS (laneFld p l F.DFY_LPH_TRACK) == 16 ||
      s.fldS (laneFld p l F.DFY_LPH_TRACK) == -16

/-- Line bits received on a lane: its stuffing violations are counted (R182). RX_INV and TX_INV invert no bit
of them (DESIGN CHOICE: assumption 287). -/
def State.lineTake (s : State) (p l : Nat) (line : List Bool) : State :=
  let x := s.lane p l
  let s := s.bump (laneFld p l F.DFY_LERR_STUFF_VIOL) (x.rx.violations line)
  s.setLane p l { x with rx := (x.rx.take s.now line).2 }

/-- The bits that line bits received on a lane stand for, and how many of the first are not valid. -/
def State.lineBits (s : State) (p l : Nat) (line : List Bool) : List Bool :=
  ((s.lane p l).rx.take s.now line).1
def State.lineSkip (s : State) (p l : Nat) : Nat := (s.lane p l).rx.skip

/-- The phase tracker of a LOCKED lane moves by at most a step in 1,024 ns and stays within 16 steps of the
centre (R191). -/
def State.trackMove (s : State) (p l : Nat) (move : Nat) : State :=
  let x := s.lane p l
  if s.laneLocked p l && move != 1 && decide (x.trackAt + 1024 * psNs ≤ s.now) then
    let t := s.fldS (laneFld p l F.DFY_LPH_TRACK) + ((move : Int) - 1)
    (s.setLane p l { x with trackAt := s.now }).setFldS (laneFld p l F.DFY_LPH_TRACK) (max (-16) (min 16 t))
  else s

/-- A LOCKED data lane loses lock: with RELOCK_EN it returns to PHASE as attempt 1, else it enters
FAILED (R192, R193, R196). -/
def laneLol (p l : Nat) (cause : LolCause) (line : List Bool) (s : State) : State :=
  if s.laneLocked p l && hasLane p l && (s.lineTake p l line).lolHolds p l cause then
    let s := (s.lineTake p l line).lose p l
    let s := if s.flag (portFld p F.DFY_PCTL_RELOCK_EN) then
        (s.setFld (laneFld p l F.DFY_LSTAT_ATTEMPT) 1).enter p l phPhase
      else s.enter p l phFailed
    s.portSet p
  else s

def execLaneLol (p : Port) (lane : DLane) (cause : LolCause) (line : List Bool) (s : State) :
    Host.Outcome State Fault Refusal := .next (laneLol p lane cause line s)

/-- The port CK loses lock: every LOCKED lane of the port leaves LOCKED; with RELOCK_EN the port returns to
CLOCK as attempt 1, else every lane enters FAILED (R192). Lanes already FAILED return to CLOCK as well (DESIGN
CHOICE: assumption 43). -/
def ckLoss (p : Nat) (s : State) : State :=
  if s.laneLocked p ckLane then
    let s := forL (allLanes p) (fun l s =>
      if s.laneLocked p l then s.lose p l else if l = ckLane then s else (s.laneDrop p l).frameDrop p l) s
    let s := if s.flag (portFld p F.DFY_PCTL_RELOCK_EN) then
        s.enterClock p 1
      else forL (allLanes p) (fun l s => s.enter p l phFailed) s
    s.portSet p
  else s

def execCkLoss (p : Port) (s : State) : Host.Outcome State Fault Refusal := .next (ckLoss p s)

/-! ### Eye scan (R197 to R199) -/

/-- DWELL_EXP: values outside 16 to 40 act as the nearer limit (Table 7.9). -/
def State.dwell (s : State) (p l : Nat) : Nat :=
  max 16 (min 40 (s.fld (laneFld p l F.DFY_ESCTL_DWELL_EXP)))

/-- The offset sampler's place from the data sampler's: PH_OFF in steps of 1.25 ps, −32 to +31, and V_OFF in
steps of 4 mV, with −32 as −31 (R197, Table 7.9). PH_OFF beyond a limit acts as the limit (DESIGN CHOICE:
assumption 48). -/
def State.scanPhase (s : State) (p l : Nat) : Int :=
  max (-32) (min 31 (s.fldS (laneFld p l F.DFY_ESCTL_PH_OFF)))
def State.scanVolt (s : State) (p l : Nat) : Int := max (-31) (s.fldS (laneFld p l F.DFY_ESCTL_V_OFF))

/-- DFY_ESCTL.START: ignored with REJ on a lane that is not LOCKED; it starts or restarts a scan, with the
sampler's place and DWELL_EXP as they are set then (R197, R198). -/
def eyeScanStart (p l : Nat) (s : State) : State :=
  if !(hasLane p l) then s
  else if s.laneLocked p l then
    let s := s.setLane p l { s.lane p l with
      scan := some s.now, scanTold := false, scanDefer := 0, scanDwell := s.dwell p l
      scanPh := s.scanPhase p l, scanV := s.scanVolt p l }
    let s := s.setFlag (laneFld p l F.DFY_ESCTL_START) true
    let s := s.setReg (R.DFY_ESERR + 0x2000 * p + 0x20 * l) 0
    s.setReg (R.DFY_ESBITS + 0x2000 * p + 0x20 * l) 0
  else s.setFlag (laneFld p l F.DFY_ESCTL_REJ) true

/-- A scan completes: counts of disagreements and of compared bits, DONE (R197, Table 7.9). -/
def eyeScanDone (p l errors : Nat) (s : State) : State :=
  let x := s.lane p l
  match x.scan with
  | none => s
  | some t =>
    let bits := 2 ^ x.scanDwell
    let s := s.reach (t + bits * 80)
    let s := s.setLane p l { x with scan := none }
    let s := s.setFlag (laneFld p l F.DFY_ESCTL_START) false
    let s := s.setFlag (laneFld p l F.DFY_ESCTL_DONE) true
    let s := s.setFld (laneFld p l F.DFY_ESERR_ERRORS) (min (2 ^ 32 - 1) (min errors bits))
    s.setFld (laneFld p l F.DFY_ESBITS_BITS) (min (2 ^ 32 - 1) (bits / 512))

/-- A scan is not complete in time: STARVED and the report, once a scan; the scan goes on (R199). -/
def eyeStarved (p l : Nat) (s : State) : State :=
  let x := s.lane p l
  match x.scan with
  | none => s
  | some t =>
    if x.scanTold then s else
      let s := s.reach (t + 4 * 2 ^ x.scanDwell * 80 + 10 * psMs)
      let s := s.setLane p l { x with scanTold := true }
      (s.setFlag (laneFld p l F.DFY_ESCTL_STARVED) true).report 0x16 (laneDetail p l)

def execEyeScanStart (p : Port) (lane : DLane) (s : State) : Host.Outcome State Fault Refusal :=
  .next (eyeScanStart p lane s)
def execEyeScanDone (p : Port) (lane : DLane) (errors : Nat) (s : State) :
    Host.Outcome State Fault Refusal := .next (eyeScanDone p lane errors s)
def execEyeStarved (p : Port) (lane : DLane) (s : State) : Host.Outcome State Fault Refusal :=
  .next (eyeStarved p lane s)

/-! ### Impairment injection (R201, R202) -/

/-- The acceptance condition of IMP_GO (R201). -/
def State.impAllowed (s : State) (p : Nat) : Bool :=
  s.opState == stBlocked ||
  (p != portT && s.opState == stServicing && s.flagBit F.CRK_STATE_ARM_TEST p)

/-- DFY_PCTL.IMP_GO: arms the injection as set (R201). It takes the place of one that is armed already, and
the start of it that of one that acts (DESIGN CHOICE: assumption 51). -/
def impGo (p : Nat) (s : State) : State :=
  if s.impAllowed p then
    s.setImp p { s.imp p with
      armed := some (s.reg (R.DFY_IMP + 0x2000 * p), s.reg (R.DFY_IMP_AT + 0x2000 * p)) }
  else s.rejWrite (R.DFY_PCTL + 0x2000 * p)

def execImpGo (_src : Src) (p : Port) (s : State) : Host.Outcome State Fault Refusal := .next (impGo p s)

def impNone : Nat := 0
def impDrop : Nat := 1
def impCorruptSlot : Nat := 2
def impCorruptHdr : Nat := 3
def impReorder : Nat := 4
def impRxDrop : Nat := 5
def impRxCorrupt : Nat := 6
def impDead : Nat := 7

/-- The mode acting on a lane in this sweep, NONE when none acts (Table 7.4). -/
def State.impMode (s : State) (p l : Nat) : Nat :=
  match (s.imp p).active with
  | none => impNone
  | some c => if (bitsOf c F.DFY_IMP_LANES.lo 8).testBit l then bitsOf c 0 3 else impNone

/-- The lane slot an injection names. -/
def State.impSlot (s : State) (p : Nat) : Nat :=
  match (s.imp p).active with
  | none => 0
  | some c => bitsOf c F.DFY_IMP_SLOT.lo 7

/-- The sweeps an injection acts for: COUNT, with 0 as 1; three for REORDER (Table 7.4). -/
def impSweeps (c : Word) : Nat :=
  if bitsOf c 0 3 = impReorder then 3 else max 1 (bitsOf c F.DFY_IMP_COUNT.lo 8)

/-- An injection at an admission point: it stops where its condition no longer holds, an armed one too, or
its sweeps are over (R202). -/
def State.impStop (s : State) (p : Nat) : State :=
  let s := if s.impAllowed p then s else s.setImp p { s.imp p with armed := none }
  let i := s.imp p
  match i.active with
  | none => s
  | some c =>
    if !(s.impAllowed p) || decide (impSweeps c ≤ i.done) then
      (forL (dataLanes p) (fun l s => s.setLane p l { s.lane p l with held := none }) s).setImp p
        { i with active := none }
    else s

/-- An armed injection at the admission point of sweep k: it starts when k is its sweep or past it by
signed difference (R201). -/
def State.impStart (s : State) (p : Nat) : State :=
  let i := s.imp p
  match i.armed with
  | none => s
  | some (c, k) =>
    if decide (0 ≤ sdiff s.sweep k) then
      s.setImp p { i with armed := none, active := some c, done := 0 }
    else s

/-- Impairment injection of a port at an admission point (R201, R202). -/
def State.impAdmit (s : State) (p : Nat) : State :=
  let s := (s.impStop p).impStart p
  let act := (s.imp p).active.isSome
  let s := if act then s.setImp p { s.imp p with done := (s.imp p).done + 1 } else s
  s.setFlag (portFld p F.DFY_PSTAT_IMP_ACT) act

end Sys2Proof.Machine
end

