-- ==== Sys2Proof/Machine/Frames.lean ====
section
/-!
DEFINITION. ELX frames, reflex words, management units and credits (chapter 8): what is received on
an arm port's lane, what is sent in each carrier, and the frames that the sweep assembles.
-/

namespace Sys2Proof.Machine

/-- Bits `lo` to `lo + w - 1` of a 128-bit structure, as a number. -/
def fieldOf (x : BitVec 128) (lo w : Nat) : Nat := (x.toNat >>> lo) % 2 ^ w

/-- A 128-bit structure as the sum of its fields (value, lowest bit). -/
def packFields (l : List (Nat × Nat)) : BitVec 128 :=
  BitVec.ofNat 128 (l.foldl (fun a f => a + f.1 * 2 ^ f.2) 0)

/-! ### Reflex words (R216, R217) -/

/-- The RCRC of a reflex word, over its bits [31:8] (Table 8.9). -/
def rfxCrc (w : Word) : Byte := rcrc (bitsMsb 24 (w.toNat / 256))

/-- A reflex word as sent: with BLK and RCRC (R216, R218). -/
def rfxFinish (w : Word) (blk : Bool) : Word :=
  let w := putBits w 16 1 (if blk then 1 else 0)
  putBits w 0 8 (rfxCrc w).toNat

/-- The request a KIND stands for upstream (Table 8.7). -/
def requestOf (kind : Nat) : Option Request :=
  if kind = 1 then some .bypass else if kind = 2 then some .pbyp
  else if kind = 3 then some .selfBlocked else none

/-- A request on a lane: its cell ID must lie below N_SLOTS, else it gets no answer and counts in
RFX_BAD (R217). A module that is not ACTIVE answers none (R332, R339). -/
def State.request (s : State) (n l lslot fault rid : Nat) (r : Request) : State :=
  if s.nSlots n ≤ 128 * l + lslot then s.bump (laneFld n l F.DFY_RFXERR_RFX_BAD) 1
  else if !s.active then s
  else s.reflex n l lslot fault rid r

/-- Whether a reflex word fails RCRC, or carries a KIND that is not defined upstream (R216, R217). -/
def rfxFails (w : Word) : Bool := rfxCrc w != BitVec.ofNat 8 w.toNat
def rfxReserved (w : Word) : Bool := bitsOf w 28 4 != 0 && (requestOf (bitsOf w 28 4)).isNone

/-- A reflex word received in a carrier of a lane that is in FRAME or LOCKED (R217). -/
def State.rfxWordRx (s : State) (n l : Nat) (w : Word) : State :=
  if rfxFails w then s.bump (laneFld n l F.DFY_RFXERR_RCRC_ERR) 1
  else if bitsOf w 28 4 = 0 then s
  else match requestOf (bitsOf w 28 4) with
    | some r => s.request n l (bitsOf w 17 7) (bitsOf w 24 4) (bitsOf w 8 4) r
    | none => s.bump (laneFld n l F.DFY_RFXERR_RFX_BAD) 1

/-- An eye scan of a lane gives way to a word that the phase tracker uses (R16, R199). -/
def State.scanYield (s : State) (p l : Nat) : State :=
  let x := s.lane p l
  if x.scan.isSome then s.setLane p l { x with scanDefer := x.scanDefer + 1 } else s

/-- The reflex word of a carrier received: it is acted on, unless it has been ahead of the rest of its
carrier. A running eye scan gives way to a request word (R199, R217). -/
def State.carrierRx (s : State) (n l : Nat) (w : Word) : State :=
  let x := s.lane n l
  if x.early.contains w then s.setLane n l { x with early := x.early.erase w }
  else (if (requestOf (bitsOf w 28 4)).isSome then s.scanYield n l else s).rfxWordRx n l w

/-- A reflex word that is acted on at its last bit, ahead of the rest of its carrier (R217). -/
def State.wordRx (s : State) (n l : Nat) (w : Word) : State :=
  let s := if (requestOf (bitsOf w 28 4)).isSome then s.scanYield n l else s
  let s := s.setLane n l { s.lane n l with early := (s.lane n l).early ++ [w] }
  s.rfxWordRx n l w

/-- KIND of a request (Table 8.7). -/
def requestKind : Request → Nat
  | .bypass => 1
  | .pbyp => 2
  | .selfBlocked => 3

/-- A request's word arrives (R116, R217). -/
def requestRx (n l lslot fault rid : Nat) (r : Request) (s : State) : State :=
  if s.streams n l then s.wordRx n l (rfxFinish (rfxWord (requestKind r) fault lslot rid) false) else s

def execBypassReq (arm : Arm) (lane : DLane) (lslot : Fin 128) (fault rid : Fin 16) (s : State) :
    Host.Outcome State Fault Refusal := .next (requestRx arm lane lslot fault rid .bypass s)
def execPbypReq (arm : Arm) (lane : DLane) (lslot : Fin 128) (fault rid : Fin 16) (s : State) :
    Host.Outcome State Fault Refusal := .next (requestRx arm lane lslot fault rid .pbyp s)
def execSelfBlocked (arm : Arm) (lane : DLane) (lslot : Fin 128) (fault rid : Fin 16) (s : State) :
    Host.Outcome State Fault Refusal := .next (requestRx arm lane lslot fault rid .selfBlocked s)

/-- RCRC_ERR: a reflex word that fails RCRC, or has a KIND reserved upstream (R217). -/
def rcrcErr (n l : Nat) (w : Word) (s : State) : State :=
  if s.streams n l && (rfxFails w || rfxReserved w) then s.wordRx n l w else s

def execRcrcErr (arm : Arm) (lane : DLane) (word : Word) (s : State) :
    Host.Outcome State Fault Refusal := .next (rcrcErr arm lane word s)

/-! ### Credits and the identity record (R219, R221, R222) -/

def State.avail (s : State) (n l : Nat) : Nat := s.fld (laneFld n l F.DFY_CREDIT_AVAIL)
def State.outst (s : State) (n l : Nat) : Nat := s.fld (laneFld n l F.DFY_CREDIT_OUTST)

/-- A credited unit is sent: one credit moves from AVAIL to OUTST, and the unit waits for gap time
(R222). -/
def State.sendUnit (s : State) (n l : Nat) (utype : Byte) (payload : BitVec 64) : State :=
  let a := s.avail n l
  let o := s.outst n l
  let s := s.setFld (laneFld n l F.DFY_CREDIT_AVAIL) (a - 1)
  let s := s.setFld (laneFld n l F.DFY_CREDIT_OUTST) (o + 1)
  let x := s.lane n l
  s.setLane n l { x with units := x.units ++ [(utype, payload)] }

/-- Credits returned in an upstream header: from OUTST to AVAIL, the excess counted (R222). -/
def State.creditRet (s : State) (n l c : Nat) : State :=
  let a := s.avail n l
  let o := s.outst n l
  let m := min c o
  let s := s.setFld (laneFld n l F.DFY_CREDIT_AVAIL) (a + m)
  let s := s.setFld (laneFld n l F.DFY_CREDIT_OUTST) (o - m)
  s.bump (laneFld n l F.DFY_CREDIT_CRED_ERR) (c - m)

def utEchoReq : Byte := 0x01

/-- The payload of an ECHO_REQ (Table 8.8). -/
def echoPayload (lslot tag : Nat) : BitVec 64 := BitVec.ofNat 64 (lslot * 2 ^ 57 + tag % 256 * 2 ^ 49)

/-- Whether the unit of an echo request still waits for gap time, so that it has not left the contacts. -/
def LaneSt.waits (x : LaneSt) (e : Nat × Nat × Nat) : Bool :=
  x.units.contains (utEchoReq, echoPayload e.1 e.2.1)

/-- A unit's last bit leaves the contacts at an instant: an echo request counts from there (R104, R220). -/
def LaneSt.leaves (x : LaneSt) (u : Option (Byte × BitVec 64)) (t : Nat) : LaneSt :=
  { x with echoes := x.echoes.map (fun e =>
      if u == some (utEchoReq, echoPayload e.1 e.2.1) then (e.1, e.2.1, t) else e) }

/-- A carrier of a frame goes ahead of an echo request that waits: a deferral of the echo (R16, R105). -/
def LaneSt.defers (x : LaneSt) (frame : Bool) : LaneSt :=
  if frame && x.units.any (fun u => u.1 == utEchoReq) then { x with echoDefer := x.echoDefer + 1 } else x

def utIdReq : Byte := 0x04
def utShort : Byte := 0x0F

/-- The payload of an ID_REQ (Table 8.8). -/
def idReqPayload (chunk : Nat) : BitVec 64 := BitVec.ofNat 64 (chunk * 2 ^ 60)

/-- The chunk asked for at an instant, none before the first request. -/
def LaneSt.askedAt (x : LaneSt) (c : Nat) : Option Nat := tget (fun _ => none) x.asked c

/-- Whether a chunk has arrived. -/
def LaneSt.hasChunk (x : LaneSt) (c : Nat) : Bool := x.chunks.any (fun e => e.1 == c)

/-- An ID_REQ is sent for a chunk. Its 256 µs run from here (DESIGN CHOICE: assumption 288). -/
def State.askChunk (s : State) (n l c : Nat) : State :=
  let x := s.lane n l
  let s := s.setLane n l { x with asked := tset (fun _ => none) c (some s.now) x.asked }
  s.sendUnit n l utIdReq (idReqPayload c)

/-- ID_REQ: the lowest chunk not asked for yet, while a credit is available (R221). -/
def idReq (n l : Nat) (s : State) : State :=
  if s.laneLocked n l && decide (0 < s.avail n l) then
    let x := s.lane n l
    match (List.range 8).find? (fun c => (x.askedAt c).isNone && !(x.hasChunk c)) with
    | none => s
    | some c => s.askChunk n l c
  else s

/-- The wait after which an ID_REQ is sent again, ps (R221). -/
def idRetryPs : Nat := 256 * psUs

/-- ID_REQ_RETRY: the chunk asked for longest ago whose record has not come in 256 µs (R221). -/
def idReqRetry (n l : Nat) (s : State) : State :=
  if s.laneLocked n l && decide (0 < s.avail n l) then
    let x := s.lane n l
    let open_ := (List.range 8).filterMap (fun c =>
      if x.hasChunk c then none else (x.askedAt c).map (fun t => (t, c)))
    match sortBy (fun a b => decide (a.1 ≤ b.1)) open_ with
    | [] => s
    | (t, c) :: _ => (s.reach (t + idRetryPs)).askChunk n l c
  else s

def execIdReq (arm : Arm) (lane : DLane) (s : State) : Host.Outcome State Fault Refusal :=
  .next (idReq arm lane s)
def execIdReqRetry (arm : Arm) (lane : DLane) (s : State) : Host.Outcome State Fault Refusal :=
  .next (idReqRetry arm lane s)

/-- The 48 bytes of an identity record whose eight chunks have arrived (R221). -/
def LaneSt.record (x : LaneSt) : List Byte :=
  (List.range 8).flatMap (fun c =>
    let v := (tget (fun _ => (0 : BitVec 48)) x.chunks c).toNat
    (List.range 6).map (fun i => BitVec.ofNat 8 (v / 2 ^ (8 * (5 - i)))))

/-- ASYM of a record, in units of 0.125 ns (R221). -/
def recAsym (r : List Byte) : Int := (BitVec.ofNat 32 (leNat ((r.drop 8).take 4))).toInt
/-- MGMT_BUF of a record. -/
def recBuf (r : List Byte) : Nat := (r.getD 12 0).toNat

/-- Whether ASYM of a record lies in its range, and whether MGMT_BUF does too (R221). -/
def recAsymOk (r : List Byte) : Bool := decide (-32768 ≤ recAsym r) && decide (recAsym r ≤ 32767)
def recValid (r : List Byte) : Bool := decide (1 ≤ recBuf r) && decide (recBuf r ≤ 16) && recAsymOk r

/-- The record is complete: NODE_ID and, when the record is valid, ASYM, ID_OK and the declared buffers;
requalification that waits for ID_OK begins (R196, R221, R222). An ASYM outside its 16 bits leaves the field as
it was (DESIGN CHOICE: assumption 307). -/
def State.idComplete (s : State) (n l : Nat) : State :=
  let r := (s.lane n l).record
  let s := s.setFld (laneFld n l F.DFY_NODE_NODE_ID) (leNat (r.take 2))
  let s := if recAsymOk r then s.setFldS (laneFld n l F.DFY_NODE_ASYM) (recAsym r) else s
  if recValid r then
    let s := s.setFlag (laneFld n l F.DFY_CREDIT_ID_OK) true
    let s := s.setFld (laneFld n l F.DFY_CREDIT_MGMT_BUF) (recBuf r)
    let s := s.setFld (laneFld n l F.DFY_CREDIT_AVAIL) (s.avail n l + (recBuf r - 1))
    if (s.lane n l).requal then s.setFlag (laneFld n l F.DFY_LSTAT_REQUAL) true else s
  else s

/-- An identity chunk arrives; one that has been received already is discarded (R221). -/
def idRec (n l chunk : Nat) (bytes : BitVec 48) (s : State) : State :=
  let x := s.lane n l
  if s.laneLocked n l && decide (chunk < 8) && !(x.hasChunk chunk) then
    let x := { x with chunks := insBy (fun a b => decide (a.1 ≤ b.1)) (chunk, bytes) x.chunks }
    let s := s.setLane n l x
    if (List.range 8).all x.hasChunk then s.idComplete n l else s
  else s

/-- A node's report of its downstream eye (R200). -/
def eyeRep (n l : Nat) (w h : Byte) (s : State) : State :=
  if s.streams n l then s.setLane n l { s.lane n l with eye := (w.toNat, h.toNat) } else s

/-! ### Upstream frames (R209, R211, R212, R214) -/

/-- HCRC of a header, over its bits [95:0] (Table 8.1). -/
def hdrCrc (h : BitVec 128) : Word := hcrc (bitsMsb 96 (h.toNat % 2 ^ 96))

/-- A downstream slot's SCRC, over its bits [95:24] (Table 8.3). -/
def slotCrc (x : BitVec 128) : BitVec 24 := crc24 (bitsMsb 72 (fieldOf x 24 72))

/-- An upstream slot's SCRC: FRESH, FLAGS bit 3, is taken as 0 (R212). -/
def upSlotCrc (x : BitVec 128) : BitVec 24 := slotCrc (x &&& ~~~(BitVec.ofNat 128 (2 ^ 59)))

/-- The lane slot a frame slot carries: half frames carry the half their SEQ's parity addresses
(R36, R205). -/
def slotOf (len seq i : Nat) : Nat := if len = 64 && seq % 2 = 1 then i + 64 else i

/-- The carriers' reflex words of a frame, the header's first (R217). -/
def frameWords (hdr : BitVec 128) (slots : List (BitVec 128)) : List Word :=
  (hdr :: slots).map (fun x => BitVec.ofNat 32 (fieldOf x 96 32))

/-- The reflex words received of a frame act, whatever becomes of their carriers (R217). -/
def wordsRx (n l : Nat) (ws : List Word) (s : State) : State := forL ws (fun w s => s.carrierRx n l w) s

/-- One bit of the received lane slot inverted (impairment RX_CORRUPT). Which bit is a free value. -/
def State.rxCorrupt (s : State) (n l seq : Nat) (slots : List (BitVec 128)) : List (BitVec 128) :=
  if s.impMode n l = impRxCorrupt then
    (List.range slots.length).map (fun i =>
      let x := slots.getD i 0
      if slotOf slots.length seq i = s.impSlot n then
        x ^^^ BitVec.ofNat 128 (2 ^ (Config.freeBit s.free % 128)) else x)
  else slots

/-- UP_LAG in effect: 0 acts as 1 (Table 8.11). -/
def State.upLag (s : State) (n : Nat) : Nat := max 1 (s.imp n).upLag

/-- Whether the conditions of R192 on sync words and header CRCs act on a lane: sweeps release frames and one
has been released on it (R434), on an ACTIVE module, and after a takeover from the takeover sweep plus UP_LAG
on (R340) (DEDUCED: assumption 240). -/
def State.missCounts (s : State) (n l : Nat) : Bool :=
  s.active && s.running && (s.lane n l).framed && (match s.twn.upFrom with
    | none => true
    | some q => decide ((s.upLag n : Nat) ≤ sdiff s.sweep q))

/-- An upstream frame whose sync word is missing, or whose header CRC fails (R192, Table 7.2). -/
def State.frameMissed (s : State) (n l : Nat) : State :=
  let x := s.lane n l
  s.setLane n l { x with bad := if s.missCounts n l then x.bad + 1 else x.bad, goodFrames := 0 }

/-- A slot as it is kept: SCRC has passed, with the SECDED code in place (R225). -/
def keptSlot (x : BitVec 128) : Option (BitVec 128) :=
  if upSlotCrc x == BitVec.ofNat 24 (fieldOf x 0 24) then some x else none

/-- An upstream frame whose sync word matched, whole, on a lane in FRAME or LOCKED (R192, R214, R217, R222,
R225). Its reflex words act whatever becomes of it. One that impairment RX_DROP discards does nothing else;
one whose header fails HCRC is counted; any other returns its credits and is kept for the admission point,
each slot after its SCRC check. (DEDUCED: assumption 276 for FRAME.) -/
def frameRx (n l : Nat) (hdr : BitVec 128) (hc : Word) (slots : List (BitVec 128)) (s : State) : State :=
  let s := s.scanYield n l
  if s.impMode n l = impRxDrop then wordsRx n l (frameWords hdr slots) s
  else
    let good := hdrCrc hdr == hc
    let s := if good then s.setLane n l { s.lane n l with
        bad := 0, goodFrames := (s.lane n l).goodFrames + 1 } else s.frameMissed n l
    let seq := fieldOf hdr 80 16
    let cor := s.rxCorrupt n l seq slots
    let s := if s.impMode n l = impRxCorrupt then s.draw else s
    let s := wordsRx n l (frameWords hdr cor) s
    if !good then s.bump (laneFld n l F.DFY_FERR_HCRC_ERR) 1
    else
      let s := s.creditRet n l (fieldOf hdr 62 4)
      let kept := cor.map keptSlot
      let s := s.bump (laneFld n l F.DFY_FERR_SCRC_ERR) (kept.filter (fun x => x.isNone)).length
      let x := s.lane n l
      let f : UpFrame := { at_ := s.now, seq := seq, epoch := fieldOf hdr 72 8, slots := kept }
      s.setLane n l { x with frames := f :: x.frames }

/-- A valid report of an admitted frame (Table 8.5). -/
structure Report where
  lslot : Nat
  vcap : Nat
  state : Nat
  fault : Nat
  flags : Nat
  deriving DecidableEq, Repr

/-- The report of a slot: none unless SCRC has passed, LSLOT is the slot's place, SEQ and EPOCH are the
header's and FRESH is 1. The second component says whether the slot counts in SLOT_ERR (R212, R214). -/
def slotReport (f : UpFrame) (i : Nat) : Option (BitVec 128) → Option Report × Bool
  | none => (none, true)
  | some x =>
    let lslot := slotOf f.slots.length f.seq i
    let ok := fieldOf x 49 7 == lslot && fieldOf x 32 16 == f.seq && fieldOf x 24 8 == f.epoch
    let r : Report := { lslot := lslot, vcap := fieldOf x 80 16, state := fieldOf x 76 4
                        fault := fieldOf x 72 4, flags := fieldOf x 56 8 }
    (if ok && (fieldOf x 56 8).testBit 3 then some r else none, !ok)

/-- A frame that is not admitted, counted once (R214). -/
def State.discardFrame (s : State) (n l : Nat) (f : UpFrame) : State :=
  let late := (s.sweep.toNat + 2 ^ 16 * 4 - 1 - s.upLag n) % 2 ^ 16
  if f.epoch == s.fld (portFld n F.DFY_FSTAT_EPOCH) && f.seq == late then
    s.bump (laneFld n l F.DFY_FERR2_UP_LATE) 1
  else s.bump (laneFld n l F.DFY_FERR2_SEQ_ERR) 1

/-- The upstream frames of a lane at an admission point: the newest whose SEQ is UP_LAG sweeps back
and whose EPOCH is current is admitted, every other is discarded and counted (R214). -/
def State.admitLane (s : State) (n l : Nat) : State × List Report :=
  let x := s.lane n l
  let target := (s.sweep.toNat + 2 ^ 16 * 4 - s.upLag n) % 2 ^ 16
  let epoch := s.fld (portFld n F.DFY_FSTAT_EPOCH)
  let hit := fun (f : UpFrame) => f.epoch == epoch && f.seq == target
  let chosen := x.frames.find? hit
  let rest := match chosen with
    | none => x.frames
    | some f => x.frames.erase f
  let s := s.setLane n l { x with frames := [] }
  let s := forL rest (fun f s => s.discardFrame n l f) s
  match chosen with
  | none => (s, [])
  | some f =>
    let rs := (List.range f.slots.length).map (fun i => slotReport f i (f.slots.getD i none))
    let s := s.bump (laneFld n l F.DFY_FERR2_SLOT_ERR) (rs.filter (fun r => r.2)).length
    (s, rs.filterMap (fun r => r.1))

/-! ### Downstream frames (R208, R210, R224) -/

/-- DT of a command's window time ET for a cell (R95): in units of 1/200 ns, rounded half up to 1 ns,
not below 0. -/
def dtOf (period win commit delay et : Nat) : Nat :=
  let x : Int := 200 * ((period : Int) + win + et - commit) - 1024 - 25 * (delay : Int)
  min 65534 (((x + 100) / 200).toNat)

/-- DT that says 'apply on receipt', or 'no second change' (Table 4.2). -/
def dtNone : Nat := 0xFFFF

/-- The downstream sync word (R206). -/
def downSync : BitVec 64 := 0x5A3C96E10FD24B87

/-- What the header and the slots of one sweep's frames share. -/
structure FrameCtx where
  seq : Nat
  epoch : Nat
  state : Nat
  repeated : Bool
  alt : Bool
  half : Nat
  hold : Nat
  period : Nat
  win : Nat
  commit : Nat
  deriving DecidableEq, Repr

/-- The settings of the present sweep's frames (Table 8.2). -/
def State.frameCtx (s : State) (rpt : Bool) : FrameCtx :=
  { seq := s.sweep.toNat % 2 ^ 16, epoch := s.fld F.DFY_FSTAT_EPOCH, state := s.opState
    repeated := rpt, alt := s.alt, half := s.sweep.toNat % 2, hold := s.holdUs
    period := s.period, win := s.fld F.CRK_WIN_WIN_OFF, commit := s.commitNs }

/-- The header of a lane, with RFX still 0 (Table 8.2). -/
def State.frameHdr (s : State) (c : FrameCtx) (n l : Nat) : BitVec 128 :=
  packFields [(c.seq, 80), (c.epoch, 72), (n, 69), (l, 66), (c.state, 63),
    ((if c.repeated then 1 else 0), 62), ((if c.alt then 1 else 0), 61),
    ((if c.alt then c.half else 0), 60), (c.hold, 53), (c.period, 38),
    (s.effFld (portFld n F.DFY_FCFG_SAMP_NS), 24), (s.effFld (portFld n F.DFY_UPST_UP_START_NS), 8),
    (1, 0)]

/-- One of the two edge times of a command, for a cell with a path delay. -/
def dtField (c : FrameCtx) (delay : Nat) : Option Nat → Nat
  | none => dtNone
  | some et => dtOf c.period c.win c.commit delay et

/-- A slot with RFX still 0: the command of a cell; where the slot is not present or not in use, no
edges and Permanent bypass when its fault record carries PERM, else code 0 (R93, R114, R210, Table
8.3). -/
def State.frameSlot (s : State) (c : FrameCtx) (n l lslot : Nat) (cmd : CellCmd) : BitVec 128 :=
  let slot := 128 * l + lslot
  let x := s.cell (cellId n slot)
  let on := x.flags.testBit 0 && decide (slot < s.nSlots n)
  let body := packFields [((if on then cmd.code else if x.perm then codePermanent else 0), 92),
    ((if on then dtField c x.delay cmd.et1 else dtNone), 76),
    ((if on then dtField c x.delay cmd.et2 else dtNone), 60),
    (lslot, 53), (c.seq, 32), (c.epoch, 24)]
  body ||| (slotCrc body).setWidth 128

/-- The lane slots a frame carries (R205). -/
def FrameCtx.lslots (c : FrameCtx) : List Nat :=
  if c.alt then (List.range 64).map (· + 64 * c.half) else List.range 128

/-- The frame of one lane, from the commands of the arm's slots. -/
def State.frameOf (s : State) (c : FrameCtx) (n l : Nat) (cmd : Nat → CellCmd) : DownFrame :=
  let hdr := s.frameHdr c n l
  { hdr := hdr, hcrc := hdrCrc hdr
    slots := c.lslots.map (fun i => s.frameSlot c n l i (cmd (128 * l + i))) }

/-- The lanes that may stream at the next commit point. -/
def State.mayStream (s : State) (n l : Nat) : Bool :=
  s.phase n l != phOff && s.phase n l != phFailed

/-- The lane keys of the six arm ports. -/
def armLanes : List (Nat × Nat) := (List.range 6).flatMap (fun n => (List.range 8).map (fun l => (n, l)))

/-- Frames of every arm lane, by lane key. -/
def State.frames (s : State) (c : FrameCtx) (cmd : Nat → Nat → CellCmd) : Tab DownFrame :=
  (armLanes.filter (fun x => s.mayStream x.1 x.2)).map (fun x =>
    (laneKey x.1 x.2, s.frameOf c x.1 x.2 (cmd x.1)))

/-- A frame with the check of slot `i` inverted, or of the header for 128 (R224). -/
def DownFrame.spoil (f : DownFrame) (i : Nat) : DownFrame :=
  if i = 128 then { f with hcrc := ~~~f.hcrc }
  else { f with slots := f.slots.set i (f.slots.getD i 0 ^^^ 0xFFFFFF) }

/-- An internal check fails in frame assembly: the check is sent inverted, counted and reported
(R224). -/
def State.intErr (s : State) (n l i : Nat) : State :=
  let k := laneKey n l
  let asm := s.dfy.asm.map (fun x => if x.1 = k then (x.1, x.2.spoil i) else x)
  let s := { s with dfy := { s.dfy with asm := asm } }
  (s.bump (portFld n F.DFY_FSTAT_INT_ERR) 1).report 0x17 (laneDetail n l)

/-- Frame assembly of the present sweep (R208, R210, R224). An armed injection of TARGET 3 spoils the
first slot of the first lane assembled (R377). -/
def frameAssembly (bad : Option (Arm × DLane × Fin 129)) (s : State) : State :=
  if s.crk.stage = .swarmDone then
    let fr := s.frames (s.frameCtx false) (fun n k => tget (fun _ => {}) (s.arm n).work.cmds k)
    let s := { s with dfy := { s.dfy with asm := fr }, crk := { s.crk with stage := .assembled } }
    let s := match fr.head? with
      | some x => if s.injected 3 then (s.injDone).intErr (x.1 / 16) (x.1 % 16) 0 else s
      | none => s
    match bad with
    | none => s
    | some (n, l, i) => s.intErr n l i
  else s

def execFrameAssembly (bad : Option (Arm × DLane × Fin 129)) (s : State) :
    Host.Outcome State Fault Refusal := .next (frameAssembly bad s)

/-- One lane's frame released at a commit point, as the impairment acting on the lane leaves it
(R201, R434). -/
def State.releaseLane (s : State) (p l : Nat) (f : DownFrame) : State :=
  let x := s.lane p l
  let x := { x with sent := 0, framed := true, frameAt := s.now, frameSweeps := if s.phase p l = phFrame then x.frameSweeps + 1 else x.frameSweeps }
  let mode := s.impMode p l
  let k := (s.imp p).done
  if mode = impDrop then s.setLane p l { x with frame := none }
  else if mode = impCorruptSlot then
    let i := s.impSlot p
    let j := if f.slots.length = 64 then (if i / 64 = s.sweep.toNat % 2 then i % 64 else 128) else i
    let b := BitVec.ofNat 128 (2 ^ (Config.freeBit s.free % 96))
    let f := if j < f.slots.length then { f with slots := f.slots.set j (f.slots.getD j 0 ^^^ b) } else f
    s.draw.setLane p l { x with frame := some f }
  else if mode = impCorruptHdr then
    let b := BitVec.ofNat 32 (2 ^ (Config.freeBit s.free % 32))
    s.draw.setLane p l { x with frame := some { f with hcrc := f.hcrc ^^^ b } }
  else if mode = impReorder then
    if k = 1 then s.setLane p l { x with frame := none, held := some f }
    else if k = 3 then s.setLane p l { x with frame := x.held, held := none }
    else s.setLane p l { x with frame := some f }
  else s.setLane p l { x with frame := some f }

/-- A frame with the EPOCH of its release: where EPOCH has advanced since its assembly, header and slots are
formed anew, with the checks they carry otherwise unchanged (R224, R227). -/
def DownFrame.stamp (f : DownFrame) (epoch : Nat) : DownFrame :=
  let put := fun (x : BitVec 128) (lo : Nat) =>
    (x &&& ~~~(BitVec.ofNat 128 (255 * 2 ^ lo))) ||| BitVec.ofNat 128 (epoch % 256 * 2 ^ lo)
  if fieldOf f.hdr 72 8 = epoch % 256 then f
  else
    { hdr := put f.hdr 72
      hcrc := f.hcrc ^^^ hdrCrc f.hdr ^^^ hdrCrc (put f.hdr 72)
      slots := f.slots.map (fun x =>
        let y := put x 24
        y ^^^ (slotCrc x ^^^ slotCrc y).setWidth 128) }

/-- With the frames of a sweep the UP_LAG of its admission point takes effect (Table 8.11). It does so at every
release, on a module that is not ACTIVE too (DEDUCED: assumption 310). -/
def State.takeLags (s : State) : State :=
  forN 6 (fun n s => s.setImp n { s.imp n with upLag := s.effFld (portFld n F.DFY_FCFG_UP_LAG) }) s

/-- The frames of a sweep released on every arm lane in FRAME or LOCKED (R18, R227, R434). A module that is
not ACTIVE releases none (R339). -/
def State.releaseFrames (s : State) (fr : Tab DownFrame) : State :=
  let s := if s.active then
      forL fr (fun x s => if s.streams (x.1 / 16) (x.1 % 16) then
        s.releaseLane (x.1 / 16) (x.1 % 16) (x.2.stamp (s.fld (portFld (x.1 / 16) F.DFY_FSTAT_EPOCH)))
        else s) s
    else s
  { s.takeLags with dfy := { s.takeLags.dfy with asm := [] } }

/-! ### Carriers (R207, R216 to R219) -/

/-- The GCRC of a 128-bit unit, over bits [95:24], and of a short unit, over [31:24] (R219). -/
def unitBits (rfx : Word) (utype : Byte) (payload : BitVec 64) : List Bool :=
  let body := bitsMsb 8 utype.toNat ++ bitsMsb 64 payload.toNat
  bitsMsb 32 rfx.toNat ++ body ++ bitsMsb 24 (crc24 body).toNat
def shortBits (rfx : Word) : List Bool :=
  let body := bitsMsb 8 utShort.toNat
  bitsMsb 32 rfx.toNat ++ body ++ bitsMsb 24 (crc24 body).toNat

/-- The most line bits that a 128-bit unit and a short unit take with their stuff bits (R182, R217). -/
def unitLine : Nat := 134
def shortLine : Nat := 67

/-- What a lane sends next (R207, R217). -/
inductive Carrier where
  | header
  | slot (i : Nat)
  | unit
  | short
  deriving DecidableEq, Repr

/-- The instant of the next commit point, ps; none while no sweep is to come. -/
def State.nextCommit (s : State) : Option Nat :=
  match s.crk.commitDue with
  | some t => some t
  | none => s.crk.nextAdm.map (fun t => t + s.commitNs * psNs)

/-- The commit point at which the next sync word of the arm lanes begins, ps; none while no frame is to be
sent (R207, R434). -/
def State.nextSync (s : State) : Option Nat := if s.active then s.nextCommit else none

/-- The carrier that gap time takes next: a 128-bit unit while it and a short unit end before the next sync
word, then short units, then none (R207). -/
def State.gapCarrier (s : State) (x : LaneSt) : Option Carrier :=
  match s.nextSync with
  | none => some .unit
  | some t =>
    let room := (t - max x.txAt s.now) / uiPs
    if unitLine + shortLine ≤ room then some .unit
    else if shortLine ≤ room then some .short else none

/-- The next carrier of a lane. -/
def State.nextCarrier (s : State) (x : LaneSt) : Option Carrier :=
  match x.frame with
  | none => s.gapCarrier x
  | some f =>
    if x.sent = 0 then some .header
    else if x.sent ≤ f.slots.length then some (.slot (x.sent - 1))
    else s.gapCarrier x

/-- The line bits left between the last carrier and the sync word of a released frame, which 0 bits fill
(R207). -/
def LaneSt.fillRoom (x : LaneSt) : Nat :=
  let room := (x.frameAt - x.txAt) / uiPs
  if room < shortLine then room else 0

/-- The bits of a carrier with the reflex word in its place, and the lane after it. -/
def LaneSt.carrier (x : LaneSt) (rfx : Word) : Carrier → List Bool × LaneSt
  | .header =>
    let f := x.frame.getD { hdr := 0, hcrc := 0, slots := [] }
    (bitsMsb 64 downSync.toNat ++ bitsMsb 32 rfx.toNat ++ bitsMsb 96 (f.hdr.toNat % 2 ^ 96) ++
      bitsMsb 32 f.hcrc.toNat, { x with sent := 1 })
  | .slot i =>
    let f := x.frame.getD { hdr := 0, hcrc := 0, slots := [] }
    (bitsMsb 32 rfx.toNat ++ bitsMsb 96 ((f.slots.getD i 0).toNat % 2 ^ 96), { x with sent := x.sent + 1 })
  | .unit =>
    (match x.units with
    | [] => (unitBits rfx 0 0, x)
    | u :: r => (unitBits rfx u.1 u.2, { x with units := r }))
  | .short => (shortBits rfx, x)

/-- When a carrier's RFX field begins, ps: after the sync word of a frame, or where the last carrier ended
(R217). -/
def LaneSt.rfxAt (x : LaneSt) : Carrier → Nat
  | .header => max x.frameAt x.txAt + 64 * uiPs
  | .slot _ => x.txAt
  | .unit => x.txAt
  | .short => x.txAt

/-- Whether carriers of a lane are being sent: in FRAME and LOCKED, and until a frame in progress is
complete after a loss of lock, unless the outputs are gated (R193, R217, R238). -/
def State.carries (s : State) (p l : Nat) : Bool :=
  (s.streams p l || (s.lane p l).sending) && !(s.flag F.FFY_STAT_GATED)

/-- A carrier goes through scrambler and stuffer, after the fill that a sync word has before it (R179,
R207); the impairment DEAD sends 0 in its place (Table 7.4). -/
def TxSt.carry (t : TxSt) (dead : Bool) (fill : Nat) (bits : List Bool) : TxSt :=
  let z := t.zeros false fill
  let u := if dead then z.1.dead bits else z.1.send bits
  { u with line := (if dead then z.2.map (fun _ => false) else z.2) ++ u.line }

/-- RFX_FILL: the next carrier of the lane takes the oldest pending answer, or NONE, with BLK 1 while
Mantis holds block-all (R216 to R218), and goes through scrambler and stuffer (R179). After the last of a
lane that has left the stream, TP_A follows (R193). An echo request counts from the last bit of its unit, and
gives way to the carriers of frames. -/
def rfxFill (n l : Nat) (s : State) : State :=
  if s.carries n l then
    match s.nextCarrier (s.lane n l) with
    | none => s
    | some k =>
      let x := s.lane n l
      let s := s.reach (x.rfxAt k)
      let w := rfxFinish (x.answers.headD 0) (s.flag F.MTS_STAT_BLOCK_ALL)
      let c := { x with answers := x.answers.tail }.carrier w k
      let fill := if k = .header then x.fillRoom else 0
      let tx := x.tx.carry (s.impMode n l == impDead) fill c.1
      let start := if k = .header then max x.frameAt x.txAt else max x.txAt s.now
      let y := { c.2 with txAt := start + uiPs * (tx.line.length - fill), tx := tx }
      let y := (if k = .unit then y.leaves x.units.head? y.txAt else y).defers (k != .unit && k != .short)
      let y := if s.streams n l || y.sending then y
        else { y with frame := none, sent := 0, tx := { tx with line := tx.line ++ phaseLine (s.phase n l) } }
      s.setLane n l y
  else s

def execRfxFill (arm : Arm) (lane : DLane) (s : State) :
    Host.Outcome State Fault Refusal := .next (rfxFill arm lane s)

end Sys2Proof.Machine
end

