-- ==== Sys2Proof/Machine/Calib.lean ====
section
/-!
DEFINITION. Delay calibration by echo and requalification of a relocked lane (R103 to R106, R196,
R220), and the limits of WIN_OFF (R39).
-/

namespace Sys2Proof.Machine

/-! ### Present cells, lanes and the order of calibration -/

/-- Whether a slot of an arm is present as R105 has it: below N_SLOTS, PRESENT in the working copy. -/
def State.present (s : State) (n slot : Nat) : Bool :=
  decide (slot < s.nSlots n) && (s.cell (cellId n slot)).flags.testBit 0

/-- Arms enabled in CRK_ARMS.ARM_EN. -/
def State.armsEn (s : State) : List Nat := (List.range 6).filter (fun n => s.flagBit F.CRK_ARMS_ARM_EN n)

/-- The present cells of an arm's lane, by cell ID. -/
def State.laneCells (s : State) (n l : Nat) : List Nat :=
  ((List.range 128).filter (fun i => s.present n (128 * l + i))).map (fun i => cellId n (128 * l + i))

/-- The key of a cell's progress in a pass, or in the requalification of its lane. -/
def calKey (requal : Bool) (id : Nat) : Nat := if requal then 8192 + id else id

/-- Whether a lane is in requalification that has begun (R196). -/
def State.requalRuns (s : State) (n l : Nat) : Bool := s.flag (laneFld n l F.DFY_LSTAT_REQUAL)

/-- Whether a lane takes part in the running pass. -/
def State.takesPart (s : State) (n l : Nat) : Bool :=
  s.dcal.running && s.dcal.lanes.contains (laneKey n l)

/-- The cells a lane has to calibrate, in its requalification or in the pass. -/
def State.calCells (s : State) (n l : Nat) : List Nat :=
  if s.requalRuns n l then s.laneCells n l
  else if s.takesPart n l then s.dcal.present.filter (fun id =>
    decide (id / 1024 = n) && decide (id % 1024 / 128 = l))
  else []

/-- Samples a set has, sets that may be discarded, and samples that may be abandoned (R104). -/
def setSize : Nat := 16
def setsMax : Nat := 3

/-- The requests outstanding for a slot of a lane. -/
def LaneSt.asking (x : LaneSt) (lslot : Nat) : Nat :=
  (x.echoes.filter (fun e => decide (e.1 = lslot))).length

/-- Whether a cell's set still lacks a sample that no outstanding request can give. -/
def State.wantsEcho (s : State) (n l id : Nat) : Bool :=
  let c := s.cal (calKey (s.requalRuns n l) id)
  !c.finished && decide (c.samples.length + (s.lane n l).asking (id % 128) < setSize)

/-- The next cell of a lane to send an echo to: the lowest whose set lacks a sample (R104). -/
def State.calNext (s : State) (n l : Nat) : Option Nat := (s.calCells n l).find? (s.wantsEcho n l)

/-! ### Echoes (R104, R220) -/

/-- ECHO_REQ: one cell of a lane is asked, one echo a lane and sweep, while a credit is available and
the identity record is complete (R104, R105, R221, R222). -/
def echoReq (n l : Nat) (s : State) : State :=
  let x := s.lane n l
  if s.laneLocked n l && s.flag (laneFld n l F.DFY_CREDIT_ID_OK) && decide (0 < s.avail n l) &&
      x.echoSweep != some s.sweep then
    match s.calNext n l with
    | none => s
    | some id =>
      let s := s.setLane n l { x with
        echoes := x.echoes ++ [(id % 128, x.echoTag, s.now)]
        echoTag := (x.echoTag + 1) % 256
        echoSweep := some s.sweep }
      s.sendUnit n l utEchoReq (echoPayload (id % 128) x.echoTag)
  else s

def execEchoReq (arm : Arm) (lane : DLane) (s : State) : Host.Outcome State Fault Refusal :=
  .next (echoReq arm lane s)

/-- The workspace record of a cell (R106). -/
def workRec (id : Nat) : Nat := 0x04600000 + 64 * id

/-- A set of 16 samples in units of 1/16 ns: its mean rounded half up to 0.125 ns, and its spread in
0.125 ns (R104). -/
def setMean (l : List Int) : Int := (l.foldl (· + ·) 0 + 16) / 32
def setSpread (l : List Int) : Int := l.foldl max (l.headD 0) - l.foldl min (l.headD 0)

/-- The workspace record after a set (R106). -/
def State.writeWork (s : State) (id : Nat) (result : Option Int) (spread : Option Int) (disc : Nat) :
    State :=
  let a := workRec id
  let s := match result with
    | some r => s.store a (leBytes 4 (BitVec.ofInt 32 r).toNat)
    | none => s
  let s := match spread with
    | some d => s.store (a + 4) (leBytes 4 (BitVec.ofInt 32 ((d + 1) / 2)).toNat)
    | none => s
  let s := s.store (a + 8) (leBytes 2 disc)
  s.store (a + 12) (leBytes 4 s.sweep.toNat)

/-- A set is discarded: the cell starts over, or after three sets it has failed (R104). -/
def State.discardSet (s : State) (k id : Nat) (spread : Option Int) : State :=
  let c := s.cal k
  let d := c.discarded + 1
  let s := s.setCal k { c with
    samples := [], abandoned := 0, discarded := d
    finished := decide (setsMax ≤ d), failed := decide (setsMax ≤ d) }
  s.writeWork id none spread d

/-- A sample of a cell, in 1/16 ns: the sixteenth completes the set, which a spread above 4 ns discards
(R104). -/
def State.addSample (s : State) (k id : Nat) (v : Int) : State :=
  let c := s.cal k
  let l := c.samples ++ [v]
  if l.length < setSize then s.setCal k { c with samples := l }
  else
    let spread := setSpread l
    if 64 < spread then s.discardSet k id (some spread)
    else
      let s := s.setCal k { c with samples := [], finished := true, result := some (setMean l) }
      s.writeWork id (some (setMean l)) (some spread) c.discarded

/-- The sample of a round trip, in 1/16 ns: (RTT − T_TURN − ASYM) / 2 + K_TX, exactly (R104). -/
def State.echoSample (s : State) (n l tTurn rtt : Nat) : Int :=
  (rtt : Int) - tTurn - s.fldS (laneFld n l F.DFY_NODE_ASYM) + Config.kTx

/-- How long a reply may take, ps (R104). -/
def State.echoLimit (s : State) : Nat := 2 * s.period * psNs + 10 * psUs

/-- Whether a request has a lane slot and a TAG and has left the contacts. -/
def LaneSt.echoIs (x : LaneSt) (lslot tag : Nat) (e : Nat × Nat × Nat) : Bool :=
  e.1 == lslot && e.2.1 == tag && !(x.waits e)

/-- Whether a cell of a lane is being calibrated: it is one of the lane's, and not finished. -/
def State.calOpen (s : State) (n l id : Nat) : Bool :=
  (s.calCells n l).contains id && !(s.cal (calKey (s.requalRuns n l) id)).finished

/-- ECHO_REP: a reply that matches an outstanding request by LSLOT and TAG gives a sample; any other,
and one that comes after its time, is discarded (R104, R220). -/
def echoRep (n l lslot tag tTurn rtt : Nat) (s : State) : State :=
  let x := s.lane n l
  if s.laneLocked n l && x.echoes.any (x.echoIs lslot tag) && decide (125 * rtt ≤ s.echoLimit) then
    let id := cellId n (128 * l + lslot)
    let u := s.setLane n l { x with echoes := x.echoes.filter (fun e => !(x.echoIs lslot tag e)) }
    if s.calOpen n l id then u.addSample (calKey (s.requalRuns n l) id) id (s.echoSample n l tTurn rtt)
    else u
  else s

/-- ECHO_TIMEOUT: no reply to the oldest request that has left the contacts within its time; the TAG is
retired and the sample is asked for again; a set with 16 abandoned samples is discarded (R104). -/
def echoTimeout (n l : Nat) (s : State) : State :=
  let x := s.lane n l
  match x.echoes.find? (fun e => !(x.waits e)) with
  | none => s
  | some (ls, tag, at_) =>
    let s := s.reach (at_ + s.echoLimit)
    let u := s.setLane n l { x with echoes := x.echoes.erase (ls, tag, at_) }
    let id := cellId n (128 * l + ls)
    let k := calKey (s.requalRuns n l) id
    let c := s.cal k
    if !s.calOpen n l id then u
    else if setSize ≤ c.abandoned + 1 then u.discardSet k id none
    else u.setCal k { c with abandoned := c.abandoned + 1 }

def execEchoTimeout (arm : Arm) (lane : DLane) (s : State) : Host.Outcome State Fault Refusal :=
  .next (echoTimeout arm lane s)

/-! ### Passes (R105, R106) -/

/-- A pass begins: the present cells of the enabled arms, and the lanes whose identity record is
complete (R105). -/
def State.passStart (s : State) : State :=
  let lanes := (s.armsEn.flatMap (fun n => (List.range 8).map (fun l => (n, l)))).filter (fun x =>
    s.flag (laneFld x.1 x.2 F.DFY_CREDIT_ID_OK))
  let present := s.armsEn.flatMap (fun n => (List.range 8).flatMap (fun l => s.laneCells n l))
  { s with dcal := { s.dcal with
      running := true, startedAt := s.now, told := false
      lanes := lanes.map (fun x => laneKey x.1 x.2), present := present
      cells := s.dcal.cells.filter (fun c => decide (8192 ≤ c.1)) } }

/-- SWM_CAL.START (R105); START stays set until the pass ends, and a write meanwhile starts nothing. A
pass of BG_EN does not set it. -/
def dcalStart (s : State) : State :=
  if s.dcal.running then s else s.passStart.setFlag F.SWM_CAL_START true

def execDcalStart (s : State) : Host.Outcome State Fault Refusal := .next (dcalStart s)

/-- DELAY of a cell's entry in the cell table in memory (Tables 3.3 and 3.4). -/
def cellTable (n slot : Nat) : Nat := 0x04000000 + 0x100000 * n + 16 * slot
def delayAddr (id : Nat) : Nat := cellTable (id / 1024) (id % 1024) + 8

/-- SWM_CAL.TOL_NS in effect, in 0.125 ns: 0 acts as 1 (Table 4.11). -/
def State.tol (s : State) : Int := 8 * (max 1 (s.effFld F.SWM_CAL_TOL_NS) : Nat)

/-- Whether a new DELAY lies further from the present one than the tolerance (R106). -/
def State.jumps (s : State) (id : Nat) (r : Int) : Bool :=
  decide (s.tol < ((r - ((s.cell id).delay : Int)).natAbs : Int))

/-- DELAY_JUMP: JUMP is set, the first such cell recorded, and the report made (R106). While JUMP still reads
1 the earlier cell stays (DESIGN CHOICE: assumption 55). -/
def State.delayJump (s : State) (id : Nat) : State :=
  let s := if s.flag F.SWM_CAL_JUMP then s else s.setFld F.SWM_CAL_JUMP_ID id
  (s.setFlag F.SWM_CAL_JUMP true).report 0x0D id

/-- A refresh requested for an arm (R87); while one is pending a request has no further effect (R13). -/
def State.requestRefresh (s : State) (n : Nat) : State :=
  if s.flag (F.SWM_TBL_REFRESH.up (0x4000 * n)) then s
  else
    let s := s.setFlag (F.SWM_TBL_REFRESH.up (0x4000 * n)) true
    s.setArm n { s.arm n with refresh := true, refreshSweeps := 0 }

/-- Whether a new DELAY changes the cell table's; a poisoned word has no value (DEDUCED: assumption 56). -/
def State.delayDiffers (s : State) (id : Nat) (r : Int) : Bool :=
  s.poisoned (delayAddr id) 4 || s.rd32 (delayAddr id) != BitVec.ofInt 32 r

/-- A new DELAY written into the cell table, whose word is read for it (R25); it is the cell's calibrated one
from here on (R39, R106). -/
def State.writeDelay (s : State) (id : Nat) (r : Int) : State :=
  let w := BitVec.ofInt 32 r
  let s := (s.checkRead (delayAddr id) 4).store (delayAddr id) (leBytes 4 w.toNat)
  s.setCell id { s.cell id with calDelay := some w.toNat }

/-- A cell whose calibration has failed: fault CAL in Blocked and Servicing, and in requalification in
every state; else its DELAY is kept and CAL_FAIL reported (R104, R196). -/
def State.calFailed (s : State) (id : Nat) (requal : Bool) : State :=
  if s.quiet || requal then s.cellFaultSeen id 0xA true else s.report 0x0B id

/-- One cell at the end of a pass (R105, R106). -/
def State.passCell (s : State) (id : Nat) : State :=
  let part := s.dcal.lanes.contains (laneKey (id / 1024) (id % 1024 / 128))
  let c := s.cal id
  if !part || c.failed then s.calFailed id false
  else match c.result with
    | none => s
    | some r =>
      if !s.quiet && s.jumps id r then s.delayJump id
      else s.writeDelay id r

/-- The arms whose tables a pass changes. -/
def State.passArms (s : State) : List Nat :=
  (List.range 6).filter (fun n => s.dcal.present.any (fun id =>
    let c := s.cal id
    decide (id / 1024 = n) && s.dcal.lanes.contains (laneKey n (id % 1024 / 128)) && !c.failed &&
      match c.result with
      | none => false
      | some r => (s.quiet || !(s.jumps id r)) && s.delayDiffers id r))

/-! ### WIN_OFF (R39) -/

/-- The end of frame transmission after the admission point, ns (Table 2.1). -/
def State.frameEndNs (s : State) : Nat := if s.alt then 1362 else 2084

/-- The largest calibrated path delay of a configured lane, in 0.125 ns, with the lane. -/
def State.longest (s : State) : Nat × Nat × Nat :=
  (s.armsEn.flatMap (fun n => ((List.range 8).flatMap (fun l => s.laneCells n l)).map
    (fun id => ((s.cell id).calDelay.getD (s.cell id).delay, n, id % 1024 / 128)))).foldl
    (fun b x => if b.1 < x.1 then x else b) (0, 0, 0)

/-- Whether WIN_OFF violates a limit of R39. -/
def State.winBad (s : State) : Bool :=
  let w := s.fld F.CRK_WIN_WIN_OFF
  decide (8 * (w : Int) < 8 * ((s.frameEndNs : Int) - s.period + 100) + (s.longest.1 : Int)) ||
  decide (s.period < w + 2)

/-- The check of R39: a violation is reported as WIN_SHORT with the lane of the longest path. -/
def State.winCheck (s : State) : State :=
  let bad := s.winBad
  let s := { s with crk := { s.crk with winShort := bad } }
  if bad then s.report 0x07 (laneDetail s.longest.2.1 s.longest.2.2) else s

/-- Whether every cell of the lanes that take part has a result or has failed. -/
def State.passOver (s : State) : Bool :=
  s.dcal.running && s.dcal.present.all (fun id =>
    !(s.dcal.lanes.contains (laneKey (id / 1024) (id % 1024 / 128))) || (s.cal id).finished)

/-- DCAL_PASS_END: DELAY values are written or withheld, refreshes requested, failed cells recorded;
the pass is counted and WIN_OFF checked; with BG_EN the next pass starts (R104 to R106, R39). Its reports
are logged in ascending line order (R375). -/
def dcalPassEnd (s : State) : State :=
  if s.passOver then
    let s0 := s
    let arms := s.passArms
    let s := forL s.dcal.present (fun id s => s.passCell id) s
    let s := forL arms (fun n s => s.requestRefresh n) s
    let s := { s with dcal := { s.dcal with running := false } }
    let s := (s.setFlag F.SWM_CAL_START false).setFlag F.SWM_CAL_DONE true
    let s := s0.logOrder (s.bump F.SWM_CAL_STAT_PASSES 1).winCheck
    if s.flag F.SWM_CAL_BG_EN then s.passStart else s
  else s

def execDcalPassEnd (s : State) : Host.Outcome State Fault Refusal := .next (dcalPassEnd s)

/-- DCAL_STARVED: no pass completes within 10 s (R105). -/
def dcalStarved (s : State) : State :=
  if s.dcal.running && !s.dcal.told then
    let s := s.reach (s.dcal.startedAt + 10000 * psMs)
    let s := { s with dcal := { s.dcal with told := true } }
    (s.setFlag F.SWM_CAL_STAT_STARVED true).report 0x0C 0
  else s

def execDcalStarved (s : State) : Host.Outcome State Fault Refusal := .next (dcalStarved s)

/-! ### Requalification (R196) -/

/-- Whether the requalification of a lane has a result for every present cell. -/
def State.requalOver (s : State) (n l : Nat) : Bool :=
  s.requalRuns n l && (s.laneCells n l).all (fun id => (s.cal (calKey true id)).finished)

/-- REQUAL_DONE: failed cells get fault CAL; when every other new DELAY lies within the tolerance the
values are written and the lane becomes USABLE, else none is written, REQUAL_FAIL is set, DELAY_JUMP is
reported and the lane stays not USABLE until the next BRINGUP (R196). -/
def requalDone (n l : Nat) (s : State) : State :=
  if s.requalOver n l then
    let ids := s.laneCells n l
    let c := fun id => s.cal (calKey true id)
    let failed := ids.filter (fun id => (c id).failed)
    let good : List (Nat × Int) := ids.filterMap (fun id => ((c id).result).map (fun r => (id, r)))
    let jump := good.find? (fun x => s.jumps x.1 x.2)
    let s := { s with dcal := { s.dcal with
      cells := s.dcal.cells.filter (fun x => !(ids.contains (x.1 - 8192) && decide (8192 ≤ x.1))) } }
    let s := s.setFlag (laneFld n l F.DFY_LSTAT_REQUAL) false
    let s := s.setLane n l { s.lane n l with requal := false }
    let s := forL failed (fun id s => s.calFailed id true) s
    let s := match jump with
      | some (id, _) =>
        let s := s.setFlag (laneFld n l F.DFY_LSTAT_REQUAL_FAIL) true
        (s.setLane n l { s.lane n l with barred := true }).delayJump id
      | none =>
        let changed := good.any (fun x => s.delayDiffers x.1 x.2)
        let s := forL good (fun x (s : State) => s.writeDelay x.1 x.2) s
        let s := if changed then s.requestRefresh n else s
        s.setFlag (laneFld n l F.DFY_LSTAT_USABLE) (!(s.lane n l).barred)
    s.portSet n
  else s

def execRequalDone (arm : Arm) (lane : DLane) (s : State) : Host.Outcome State Fault Refusal :=
  .next (requalDone arm lane s)

end Sys2Proof.Machine
end

