-- ==== Sys2Proof/Machine/Operands.lean ====
section
/-!
DEFINITION. The operand fields of a QIS instruction word (Table 10.4), the extension of its immediates
(R257), and the functions of the ALU class without a saturation flag (Table 10.6).
-/

namespace Sys2Proof.Machine

/-! ### Instruction fields -/

/-- Bits `lo` to `lo + w - 1` of an instruction word. -/
def insField (x : Word) (lo w : Nat) : Nat := (x.toNat >>> lo) % 2 ^ w

def insOp (x : Word) : Nat := insField x 26 6
def insRd (x : Word) : Nat := insField x 21 5
def insRs1 (x : Word) : Nat := insField x 16 5
def insRs2 (x : Word) : Nat := insField x 11 5
def insSh (x : Word) : Nat := insField x 5 6
def insFn (x : Word) : Nat := insField x 0 5
def insImm16 (x : Word) : BitVec 16 := BitVec.ofNat 16 x.toNat
def insImm21 (x : Word) : BitVec 21 := BitVec.ofNat 21 x.toNat
def insVd (x : Word) : Nat := insField x 22 4
def insVs1 (x : Word) : Nat := insField x 18 4
def insVs2 (x : Word) : Nat := insField x 14 4
def insAc (x : Word) : Nat := insField x 12 2
def insX12 (x : Word) : Nat := insField x 0 12

/-! ### Immediates (R257) -/

/-- A sign-extended 16-bit immediate or offset. -/
def immS (i : BitVec 16) : Word := i.signExtend 32
/-- A zero-extended 16-bit immediate. -/
def immZ (i : BitVec 16) : Word := i.setWidth 32
/-- An offset that counts instructions of 4 bytes. -/
def offI (i : BitVec 16) : Word := i.signExtend 32 <<< 2
/-- The long immediate, in instructions of 4 bytes. -/
def offL (i : BitVec 21) : Word := i.signExtend 32 <<< 2

/-! ### ALU functions that set no flag (Table 10.6) -/

def bit01 (b : Bool) : Word := if b then 1 else 0

def opShl (a b : Word) : Word := a <<< (b.toNat % 32)
def opShr (a b : Word) : Word := a >>> (b.toNat % 32)
def opSar (a b : Word) : Word := a.sshiftRight (b.toNat % 32)
def opLt (a b : Word) : Word := bit01 (a.slt b)
def opLtu (a b : Word) : Word := bit01 (a.ult b)
def opMin (a b : Word) : Word := if a.slt b then a else b
def opMax (a b : Word) : Word := if a.slt b then b else a
/-- Leading zero bits, 0 to 32. -/
def opClz (a : Word) : Word :=
  BitVec.ofNat 32 (((List.range 32).takeWhile (fun i => !(a.getLsbD (31 - i)))).length)
def opMulhs (a b : Word) : Word := BitVec.ofInt 32 ((a.toInt * b.toInt) / 2 ^ 32)
def opMulhu (a b : Word) : Word := BitVec.ofNat 32 ((a.toNat * b.toNat) / 2 ^ 32)
/-- HIK: the immediate in the high half, the register's low half kept. -/
def opHik (a : Word) (i : BitVec 16) : Word := (immZ i <<< 16) ||| (a &&& 0xFFFF)

end Sys2Proof.Machine
end

