-- ==== Sys2Proof/Machine/Flags.lean ====
section
/-!
DEFINITION. Results with a saturation flag: the scalar functions that set STATUS.QSAT (R258, Table
10.8), the accumulator's net-wrap counter (R133, Table 5.4), and what VEXT and VSTA read from an
accumulator (R131, R134).
-/

namespace Sys2Proof.Machine

/-! ### Scalar saturation and division (R258) -/

/-- An exact integer saturated to 32 bits, and whether it saturated. -/
def satFlag (x : Int) : Word × Bool := (sat32 x, outOf 32 x)

def opAdds (a b : Word) : Word × Bool := satFlag (a.toInt + b.toInt)
def opSubs (a b : Word) : Word × Bool := satFlag (a.toInt - b.toInt)
/-- MULQ: the exact product, rounded half toward +∞ on the shift (Table 10.6). -/
def opMulq (a b : Word) (sh : Nat) : Word × Bool := satFlag (rshiftRound (a.toInt * b.toInt) sh)
/-- SAT: to the signed range of SH + 1 bits (Table 10.6). -/
def opSat (a : Word) (sh : Nat) : Word × Bool :=
  (BitVec.ofInt 32 (satInt (sh + 1) a.toInt), outOf (sh + 1) a.toInt)
def opAbs (a : Word) : Word × Bool := satFlag ↑(a.toInt.natAbs)

/-- Whether a signed division is 0x8000_0000 / −1 (Table 10.8). -/
def divOvf (a b : Word) : Bool := a == 0x80000000 && b == 0xFFFFFFFF

def opDivs (a b : Word) : Word × Bool :=
  if b = 0 then (if a.toInt < 0 then (0x80000000, true) else (0x7FFFFFFF, true))
  else if divOvf a b then (0x7FFFFFFF, true)
  else (BitVec.ofInt 32 (Int.tdiv a.toInt b.toInt), false)
def opDivu (a b : Word) : Word × Bool :=
  if b = 0 then (0xFFFFFFFF, true) else (BitVec.ofNat 32 (a.toNat / b.toNat), false)
/-- MODS: the remainder takes the sign of rs1; by 0 it is rs1, without QSAT; of 0x8000_0000 by −1 it
is 0, with QSAT (R258, Table 10.8). -/
def opMods (a b : Word) : Word × Bool :=
  if b = 0 then (a, false)
  else if divOvf a b then (0, true)
  else (BitVec.ofInt 32 (Int.tmod a.toInt b.toInt), false)
def opModu (a b : Word) : Word × Bool :=
  if b = 0 then (a, false) else (BitVec.ofNat 32 (a.toNat % b.toNat), false)

/-! ### The ALU class by function code (Table 10.6) -/

/-- The result and QSAT of an ALU function; none where FN is reserved, where SH lies outside what the
function takes, or where an unused field is not 0 (R256). -/
def aluFn (fn rs2 sh : Nat) (a b : Word) : Option (Word × Bool) :=
  let plain := fun (r : Word) => if sh = 0 then some (r, false) else none
  let flagged := fun (r : Word × Bool) => if sh = 0 then some r else none
  let imm := fun (r : Word) => if sh ≤ 31 && rs2 == 0 then some (r, false) else none
  match fn with
  | 0x00 => plain (a + b)
  | 0x01 => plain (a - b)
  | 0x02 => plain (a &&& b)
  | 0x03 => plain (a ||| b)
  | 0x04 => plain (a ^^^ b)
  | 0x05 => plain (opShl a b)
  | 0x06 => plain (opShr a b)
  | 0x07 => plain (opSar a b)
  | 0x08 => imm (a <<< sh)
  | 0x09 => imm (a >>> sh)
  | 0x0A => imm (a.sshiftRight sh)
  | 0x0B => plain (opLt a b)
  | 0x0C => plain (opLtu a b)
  | 0x0D => plain (opMin a b)
  | 0x0E => plain (opMax a b)
  | 0x0F => if rs2 = 0 then plain (opClz a) else none
  | 0x10 => flagged (opAdds a b)
  | 0x11 => flagged (opSubs a b)
  | 0x12 => plain (a * b)
  | 0x13 => plain (opMulhs a b)
  | 0x14 => plain (opMulhu a b)
  | 0x15 => if sh ≤ 62 then some (opMulq a b sh) else none
  | 0x16 => if sh ≤ 30 && rs2 == 0 then some (opSat a sh) else none
  | 0x17 => if rs2 = 0 then flagged (opAbs a) else none
  | 0x18 => flagged (opDivs a b)
  | 0x19 => flagged (opDivu a b)
  | 0x1A => flagged (opMods a b)
  | 0x1B => flagged (opModu a b)
  | _ => none

/-! ### The accumulator (R131, R133, R134) -/

/-- The bound of the accumulator's range, 2⁷¹. -/
def accLim : Int := 2 ^ 71

/-- One step up of the net-wrap counter, with the direction kept for overrange (Table 5.4). -/
def nwUp (nw : Nat) (up : Bool) : Nat × Bool :=
  match nw with
  | 0 => (1, up)
  | 1 => (2, true)
  | 3 => (0, up)
  | _ => (2, up)

/-- One step down (Table 5.4). -/
def nwDown (nw : Nat) (up : Bool) : Nat × Bool :=
  match nw with
  | 0 => (3, up)
  | 1 => (0, up)
  | 3 => (2, false)
  | _ => (2, up)

end Sys2Proof.Machine
end

