-- ==== Sys2Proof/Machine/Vector.lean ====
section
/-!
DEFINITION. The vector class of QIS (Tables 10.10 and 10.13) on 32 lanes, as Hornet and the policy
hooks execute it: registers, accumulators with the net-wrap rule (R130 to R135), gain schedules (R136
to R139), notch sections (R140, R141) and min-select (R143 to R145); and the decoding of vector words.
-/

namespace Sys2Proof.Machine

/-- A decoded vector instruction. -/
inductive VInstr where
  | vld (vd : Nat) (sp : Space) (index : Nat)
  | vst (vs1 : Nat) (sp : Space) (index : Nat)
  | valu (fn vd vs1 vs2 sh : Nat)
  | vmac (ac vs1 vs2 : Nat) (neg : Bool)
  | vmacl (ac vs1 vs2 lane : Nat) (neg : Bool)
  | vmul (ac vs1 vs2 : Nat)
  | vext (vd ac shift : Nat)
  | vlda (ac index : Nat)
  | vsta (ac index : Nat)
  | vclra (ac : Nat)
  | vgs (vd vs1 : Nat)
  | vnotch (vd vs1 k sa : Nat)
  | vmsel (vd vs1 vs2 g : Nat)
  | vperm (vd vs1 index : Nat)
  | vbr (c : VCond) (vs1 offset : Nat)
  | stop
  deriving DecidableEq, Repr

/-- What a vector engine reads that a run does not change: the input image, the committed output image
and state, the parameter page in use by word, the committed gain schedules, whether a word of the page
or of the state is poisoned, and a hook's general registers. -/
structure VCtx where
  inp : Nat → Word
  outC : Nat → Word
  parW : Nat → Word
  stC : Nat → Word
  gainC : Nat → GainSt
  badPar : Nat → Bool
  badSt : Nat → Bool
  gReg : Nat → Word

/-! ### Registers, images and accumulators -/

/-- Lane m of register r. -/
def VecSt.lane (w : VecSt) (r m : Nat) : Word := tget (fun _ => 0) w.v (32 * r + m)

/-- The set of lanes for which a condition holds, as a mask. -/
def laneMask (p : Nat → Bool) : Word :=
  (List.range 32).foldl (fun a m => if p m then a ||| BitVec.ofNat 32 (2 ^ m) else a) 0

/-- A register written lane by lane; `sat` says which lanes saturated. -/
def VecSt.put (w : VecSt) (vd : Nat) (f : Nat → Word) (sat : Nat → Bool) : VecSt :=
  { w with
    v := forN 32 (fun m t => tset (fun _ => 0) (32 * vd + m) (f m) t) w.v
    satLanes := w.satLanes ||| laneMask sat }

/-- A register written with results that saturate to 32 bits (R130). -/
def VecSt.putInt (w : VecSt) (vd : Nat) (f : Nat → Int) : VecSt :=
  w.put vd (fun m => sat32 (f m)) (fun m => outOf 32 (f m))

/-- Lane m of vector i of OUT and ST, as the run sees it (R122, R123). -/
def VecSt.outW (w : VecSt) (c : VCtx) (k : Nat) : Word := tget c.outC w.out k
def VecSt.stW (w : VecSt) (c : VCtx) (k : Nat) : Word := tget c.stC w.st k
def VecSt.setOut (w : VecSt) (c : VCtx) (k : Nat) (x : Word) : VecSt :=
  { w with out := tset c.outC k x w.out }
def VecSt.setSt (w : VecSt) (c : VCtx) (k : Nat) (x : Word) : VecSt :=
  { w with st := tset c.stC k x w.st, cleared := if c.badSt k then kins k w.cleared else w.cleared }

/-- Whether a state word is poisoned still: written words are not (R152). -/
def VecSt.stBad (w : VecSt) (c : VCtx) (k : Nat) : Bool := c.badSt k && !(w.cleared.contains k)

/-- A signed 64-bit value of two consecutive state words. -/
def VecSt.st64 (w : VecSt) (c : VCtx) (k : Nat) : Int := (w.stW c (k + 1) ++ w.stW c k : BitVec 64).toInt
def VecSt.setSt64 (w : VecSt) (c : VCtx) (k : Nat) (x : Int) : VecSt :=
  let b := BitVec.ofInt 64 x
  (w.setSt c k (b.extractLsb' 0 32)).setSt c (k + 1) (b.extractLsb' 32 32)

def VecSt.accOf (w : VecSt) (a m : Nat) : AccSt := tget (fun _ => {}) w.acc (32 * a + m)
def VecSt.setAcc (w : VecSt) (a m : Nat) (x : AccSt) : VecSt :=
  { w with acc := tset (fun _ => {}) (32 * a + m) x w.acc }

/-- An addition to an accumulator, modulo 2⁷² with the net-wrap counter (R133). -/
def AccSt.add (a : AccSt) (x : Int) : AccSt :=
  let e := a.val + x
  if accLim - 1 < e then
    let n := nwUp a.nw a.up
    { val := e - 2 * accLim, nw := n.1, up := n.2 }
  else if e < -accLim then
    let n := nwDown a.nw a.up
    { val := e + 2 * accLim, nw := n.1, up := n.2 }
  else { a with val := e }

/-- What an extraction to `bits` bits yields: the value, whether it saturated under R130, whether
under the net-wrap rule (R131, R134). -/
def AccSt.extract (a : AccSt) (shift bits : Nat) : Int × Bool × Bool :=
  match a.nw with
  | 0 =>
    let x := rshiftRound a.val shift
    (satInt bits x, outOf bits x, false)
  | 1 => (sMax bits, false, true)
  | 3 => (sMin bits, false, true)
  | _ => ((if a.up then sMax bits else sMin bits), false, true)

/-- The flags of one extracted lane. -/
def VecSt.flags (w : VecSt) (m : Nat) (sat gov : Bool) : VecSt :=
  let b := BitVec.ofNat 32 (2 ^ m)
  { w with satLanes := if sat then w.satLanes ||| b else w.satLanes
           govLanes := if gov then w.govLanes ||| b else w.govLanes }

/-! ### VALU functions (Table 10.13) -/

/-- One lane of a VALU function as an exact integer that saturates; none for the functions that give
bits, which `valuBits` holds. -/
def valuInt (fn sh : Nat) (a b : Word) : Option Int :=
  match fn with
  | 0x00 => some (a.toInt + b.toInt)
  | 0x01 => some (a.toInt - b.toInt)
  | 0x06 => some a.toInt.natAbs
  | 0x07 => some (-a.toInt)
  | 0x0B => some (rshiftRound a.toInt sh)
  | 0x0C => some (a.toInt * 2 ^ sh)
  | _ => none

/-- One lane of a VALU function that gives bits. `d` is the destination's lane. -/
def valuBits (fn : Nat) (a b d : Word) : Word :=
  match fn with
  | 0x02 => a + b
  | 0x03 => a - b
  | 0x04 => opMin a b
  | 0x05 => opMax a b
  | 0x08 => a &&& b
  | 0x09 => a ||| b
  | 0x0A => a ^^^ b
  | 0x0D => if a.slt b then 0xFFFFFFFF else 0
  | 0x0E => if a == b then 0xFFFFFFFF else 0
  | 0x0F => if d == 0 then b else a
  | _ => a

/-- A VALU function (Table 10.13). -/
def VecSt.valu (w : VecSt) (c : VCtx) (fn vd vs1 vs2 sh : Nat) : VecSt :=
  if fn = 0x11 then w.put vd (fun _ => c.gReg (4 * vs1 + vs2 % 4)) (fun _ => false)
  else match valuInt fn sh 0 0 with
    | some _ => w.putInt vd (fun m => (valuInt fn sh (w.lane vs1 m) (w.lane vs2 m)).getD 0)
    | none => w.put vd (fun m => valuBits fn (w.lane vs1 m) (w.lane vs2 m) (w.lane vd m)) (fun _ => false)

/-! ### Gain schedules (R136 to R139, Table 5.5) -/

/-- Word index of lane m's gain table in the page. -/
def gainBase (m : Nat) : Nat := 96 * m

def gainEn (c : VCtx) (m : Nat) : Bool := (c.parW (gainBase m)).getLsbD 0
def gainNreg (c : VCtx) (m : Nat) : Nat := bitsOf (c.parW (gainBase m)) 4 4 + 1
def gainRamp (c : VCtx) (m : Nat) : Nat := bitsOf (c.parW (gainBase m)) 8 8
def notchEn (c : VCtx) (m k : Nat) : Bool := (c.parW (gainBase m)).getLsbD (16 + k)
def gainHys (c : VCtx) (m : Nat) : Int := (c.parW (gainBase m + 1)).toInt
/-- Breakpoint BP_r, r from 1 on. -/
def gainBp (c : VCtx) (m r : Nat) : Int := (c.parW (gainBase m + 1 + r)).toInt
/-- KP, KI and KAW of region r. -/
def gainRegion (c : VCtx) (m r : Nat) : List Int :=
  (List.range 3).map (fun i => (c.parW (gainBase m + 32 + 4 * r + i)).toInt)

/-- The region of a scheduling value without hysteresis (R137, R139). -/
def regionOf (c : VCtx) (m : Nat) (x : Int) : Nat :=
  ((List.range (gainNreg c m)).filter (fun r => r == 0 || decide (gainBp c m r ≤ x))).foldl max 0

/-- The region after one VGS: at most one region away, with hysteresis (R137). -/
def regionNext (c : VCtx) (m r : Nat) (x : Int) : Nat :=
  if decide (r + 1 < gainNreg c m) && decide (gainBp c m (r + 1) + gainHys c m ≤ x) then r + 1
  else if decide (0 < r) && decide (x < gainBp c m r - gainHys c m) then r - 1
  else r

/-- The gains after step s of a ramp from g0 to g1, each rounded toward zero (R138). -/
def rampAt (g0 g1 : List Int) (s ramp : Nat) : List Int :=
  (g0.zip g1).map (fun p => tdiv (p.1 * ramp + (p.2 - p.1) * s) ramp)

/-- One step of a ramp that runs. -/
def GainSt.advance (g : GainSt) : GainSt :=
  if g.step < g.ramp then { g with step := g.step + 1, cur := rampAt g.g0 g.g1 (g.step + 1) g.ramp } else g

/-- A gain schedule after one VGS on a lane whose table has EN set (R137 to R139). -/
def GainSt.vgs (g : GainSt) (c : VCtx) (m : Nat) (x : Int) : GainSt :=
  if g.mark then
    let r := regionOf c m x
    { region := r, mark := false, step := 0, ramp := 0, g0 := gainRegion c m r, g1 := gainRegion c m r
      cur := gainRegion c m r }
  else
    let r := regionNext c m g.region x
    if r = g.region then g.advance
    else
      let n := gainRegion c m r
      if gainRamp c m = 0 then
        { g with region := r, step := 0, ramp := 0, g0 := n, g1 := n, cur := n }
      else
        { g with region := r, step := 0, ramp := gainRamp c m, g0 := g.cur, g1 := n }.advance

def VecSt.gain (w : VecSt) (c : VCtx) (m : Nat) : GainSt := tget c.gainC w.gains m

/-- The words of lane m's gain table that a VGS reads: the header, and with EN set the hysteresis and the
breakpoints it compares with, and the gains of a region it selects (R136 to R139, R151). -/
def VecSt.vgsWords (w : VecSt) (c : VCtx) (vs1 m : Nat) : List Nat :=
  let b := gainBase m
  let x := (w.lane vs1 m).toInt
  let g := w.gain c m
  let reg := fun (r : Nat) => [b + 32 + 4 * r, b + 33 + 4 * r, b + 34 + 4 * r]
  let r := g.region
  if !(gainEn c m) then [b]
  else if g.mark then
    b :: (List.range (gainNreg c m - 1)).map (fun i => b + 2 + i) ++ reg (regionOf c m x)
  else
    let up := decide (r + 1 < gainNreg c m)
    b :: ((if up then [b + 2 + r] else []) ++ (if 0 < r then [b + 1 + r] else []) ++
      (if up || decide (0 < r) then [b + 1] else []) ++
      (if regionNext c m r x = r then [] else reg (regionNext c m r x)))

/-- VGS: lanes whose table has EN clear keep their lanes of the three registers (R136). -/
def VecSt.vgs (w : VecSt) (c : VCtx) (vd vs1 : Nat) : VecSt :=
  forN 32 (fun m w' =>
    if gainEn c m then
      let g := (w.gain c m).vgs c m (w.lane vs1 m).toInt
      let w' := { w' with gains := tset c.gainC m g w'.gains }
      { w' with v := forN 3 (fun i t =>
          tset (fun _ => 0) (32 * (vd + i) + m) (BitVec.ofInt 32 (g.cur.getD i 0)) t) w'.v }
    else w') w

/-! ### Notch sections (R140, R141) -/

/-- Coefficient i (b0, b1, b2, a1, a2) of section k of lane m: word index in the page. -/
def notchCoef (c : VCtx) (m k i : Nat) : Int := (c.parW (0xC00 + 20 * m + 5 * k + i)).toInt

/-- A product sum from a 64-bit state: one accumulator (R140). -/
def notchSum (s : Int) (terms : List Int) : AccSt := terms.foldl AccSt.add { val := s }

/-- One lane of VNOTCH whose section is enabled. -/
def VecSt.notchLane (w : VecSt) (c : VCtx) (vd vs1 k sa m : Nat) : VecSt :=
  let a := 32 * (4 * sa) + 4 * m
  let x := (w.lane vs1 m).toInt
  let b := notchCoef c m k
  let s1 := w.st64 c a
  let s2 := w.st64 c (a + 2)
  let y := (notchSum s1 [b 0 * x]).extract 29 32
  let n1 := (notchSum s2 [b 1 * x, -(b 3 * y.1)]).extract 0 64
  let n2 := (notchSum 0 [b 2 * x, -(b 4 * y.1)]).extract 0 64
  let w := { w with v := tset (fun _ => 0) (32 * vd + m) (BitVec.ofInt 32 y.1) w.v }
  let w := (w.setSt64 c a n1.1).setSt64 c (a + 2) n2.1
  w.flags m (y.2.1 || n1.2.1 || n2.2.1) (y.2.2 || n1.2.2 || n2.2.2)

/-- VNOTCH (R140). -/
def VecSt.vnotch (w : VecSt) (c : VCtx) (vd vs1 k sa : Nat) : VecSt :=
  forN 32 (fun m w =>
    if notchEn c m k then w.notchLane c vd vs1 k sa m
    else { w with v := tset (fun _ => 0) (32 * vd + m) (w.lane vs1 m) w.v }) w

/-! ### Min-select (R143 to R145) -/

/-- Word i of group g's entry (Table 5.7). -/
def groupW (c : VCtx) (g i : Nat) : Word := c.parW (0xE80 + 4 * g + i)

/-- The selected lane and candidate of a group: the minimum or the maximum, the lowest lane on a tie. -/
def selLane (maxMode : Bool) (cand : Nat → Int) (lanes : List Nat) : Nat × Int :=
  match lanes with
  | [] => (0, 0)
  | l :: r => r.foldl (fun b m =>
      if (if maxMode then decide (b.2 < cand m) else decide (cand m < b.2)) then (m, cand m) else b)
      (l, cand l)

/-- VMSEL (R144, R145). -/
def VecSt.vmsel (w : VecSt) (c : VCtx) (vd vc vi g : Nat) : VecSt :=
  let mask := groupW c g 0
  let mode := groupW c g 1
  if mode.getLsbD 31 then
    let lanes := (List.range 32).filter (fun m => mask.getLsbD m)
    let cand := fun m => (w.lane vc m).toInt
    let sel := selLane (mode.getLsbD 0) cand lanes
    let out := max (groupW c g 2).toInt (min (groupW c g 3).toInt sel.2)
    let w1 := forL lanes (fun m w' =>
      let kaw := ((w.gain c m).cur).getD 2 0
      let p := rshiftRound (kaw * (out - cand m)) 30
      let i := (w.lane vi m).toInt + satInt 32 p
      let w' := { w' with v := tset (fun _ => 0) (32 * vd + m) (BitVec.ofInt 32 out) w'.v }
      let w' := { w' with v := tset (fun _ => 0) (32 * vi + m) (sat32 i) w'.v }
      w'.flags m (outOf 32 p || outOf 32 i) false) w
    let res := sel.1 + (if out != sel.2 then 2 ^ 8 else 0) + 2 ^ 15
    w1.setOut c (32 * 7 + 24 + g) (BitVec.ofNat 32 res)
  else w

/-! ### One instruction -/

/-- Whether an instruction is of the MAC class (R120). -/
def VInstr.isMac : VInstr → Bool
  | .vmac .. => true
  | .vmacl .. => true
  | .vmul .. => true
  | .vnotch .. => true
  | _ => false

/-- Whether a VNOTCH reads a poisoned word at lane m: the header, and of an enabled section its
coefficients and its state (R140, R151). -/
def VecSt.notchReads (w : VecSt) (c : VCtx) (k sa m : Nat) : Bool :=
  c.badPar (gainBase m) || (notchEn c m k &&
    ((List.range 5).any (fun i => c.badPar (0xC00 + 20 * m + 5 * k + i)) ||
     (List.range 4).any (fun i => w.stBad c (128 * sa + 4 * m + i))))

/-- Whether an instruction reads a poisoned word of ST or PAR (R151). -/
def VecSt.reads (w : VecSt) (c : VCtx) : VInstr → Bool
  | .vld _ .par i => (List.range 32).any (fun m => c.badPar (32 * i + m))
  | .vld _ .st i => (List.range 32).any (fun m => w.stBad c (32 * i + m))
  | .vlda _ i => (List.range 64).any (fun m => w.stBad c (32 * i + m))
  | .vperm _ _ i => (List.range 32).any (fun m => c.badPar (32 * i + m))
  | .vgs _ vs1 => (List.range 32).any (fun m => (w.vgsWords c vs1 m).any c.badPar)
  | .vnotch _ _ k sa => (List.range 32).any (w.notchReads c k sa)
  | .vmsel _ _ _ g => c.badPar (0xE80 + 4 * g + 1) || ((groupW c g 1).getLsbD 31 &&
      (List.range 4).any (fun i => c.badPar (0xE80 + 4 * g + i)))
  | _ => false

/-- The value a VLD reads at lane m. -/
def VecSt.load (w : VecSt) (c : VCtx) (sp : Space) (k : Nat) : Word :=
  match sp with
  | .inp => c.inp k
  | .out => w.outW c k
  | .par => c.parW k
  | .st => w.stW c k

/-- A VST: OUT and ST alone take it, and OUT7's lanes 24 to 31 do not (R121, R127). -/
def VecSt.vstore (w : VecSt) (c : VCtx) (sp : Space) (index vs1 : Nat) : VecSt :=
  match sp with
  | .inp => w
  | .par => w
  | .out => forN 32 (fun m w' =>
      if index = 7 && decide (24 ≤ m) then w' else w'.setOut c (32 * index + m) (w.lane vs1 m)) w
  | .st => forN 32 (fun m w' => w'.setSt c (32 * index + m) (w.lane vs1 m)) w

/-- Whether the condition of a VBR holds (Table 10.10). -/
def VecSt.cond (w : VecSt) (vs1 : Nat) : VCond → Bool
  | .always => true
  | .anyNonzero => (List.range 32).any (fun m => w.lane vs1 m != 0)
  | .allZero => (List.range 32).all (fun m => w.lane vs1 m == 0)

/-- An accumulating instruction on every lane (R133). -/
def VecSt.accum (w : VecSt) (a : Nat) (f : Nat → Int) : VecSt :=
  forN 32 (fun m w' => w'.setAcc a m ((w.accOf a m).add (f m))) w

/-- What an instruction does to the engine (Table 10.10). -/
def VecSt.act (w : VecSt) (c : VCtx) : VInstr → VecSt
  | .vld vd sp i => w.put vd (fun m => w.load c sp (32 * i + m)) (fun _ => false)
  | .vst vs1 sp i => w.vstore c sp i vs1
  | .valu fn vd vs1 vs2 sh => w.valu c fn vd vs1 vs2 sh
  | .vmac a vs1 vs2 neg => w.accum a (fun m =>
      let p := (w.lane vs1 m).toInt * (w.lane vs2 m).toInt
      if neg then -p else p)
  | .vmacl a vs1 vs2 l neg => w.accum a (fun m =>
      let p := (w.lane vs1 m).toInt * (w.lane vs2 l).toInt
      if neg then -p else p)
  | .vmul a vs1 vs2 => forN 32 (fun m w' => w'.setAcc a m
      { val := (w.lane vs1 m).toInt * (w.lane vs2 m).toInt }) w
  | .vext vd a sh => forN 32 (fun m w' =>
      let e := (w.accOf a m).extract sh 32
      { w' with v := tset (fun _ => 0) (32 * vd + m) (BitVec.ofInt 32 e.1) w'.v }.flags m e.2.1 e.2.2) w
  | .vlda a i => forN 32 (fun m w' => w'.setAcc a m { val := w.st64 c (32 * i + 2 * m) }) w
  | .vsta a i => forN 32 (fun m w' =>
      let e := (w.accOf a m).extract 0 64
      (w'.setSt64 c (32 * i + 2 * m) e.1).flags m e.2.1 e.2.2) w
  | .vclra a => forN 32 (fun m w' => w'.setAcc a m {}) w
  | .vgs vd vs1 => w.vgs c vd vs1
  | .vnotch vd vs1 k sa => w.vnotch c vd vs1 k sa
  | .vmsel vd vc vi g => w.vmsel c vd vc vi g
  | .vperm vd vs1 i => w.put vd (fun m =>
      let p := c.parW (32 * i + m)
      if p.getLsbD 31 then 0 else w.lane vs1 (p.toNat % 32)) (fun _ => false)
  | .vbr cd vs1 off => if w.cond vs1 cd then { w with skip := off } else w
  | .stop => { w with ended := true }

/-- One instruction on an engine: nothing once the run has ended, one instruction fewer to skip after a
taken branch, else its effect, counted. The second component is the fault of R151. -/
def VecSt.step (w : VecSt) (c : VCtx) (i : VInstr) : VecSt × Bool :=
  if w.ended then (w, false)
  else if 0 < w.skip then ({ w with skip := w.skip - 1 }, false)
  else if w.reads c i then ({ w with ended := true }, true)
  else
    let w := w.act c i
    ({ w with instrs := w.instrs + 1, macs := if i.isMac then w.macs + 1 else w.macs }, false)

/-! ### Decoding (Table 10.4 format E, R256) -/

def spaceOf (n : Nat) : Space := if n = 0 then .inp else if n = 1 then .out else if n = 2 then .par else .st

/-- The number of vectors of a space (Table 5.1). -/
def spaceSize : Space → Nat
  | .inp => 8
  | .out => 8
  | .par => 256
  | .st => 128

def condOf (n : Nat) : Option VCond :=
  if n = 0 then some .always else if n = 1 then some .anyNonzero
  else if n = 2 then some .allZero else none

/-- Whether a VALU function uses its second source; VSPLAT's field rules are its own. -/
def valuUses2 (fn : Nat) : Bool :=
  !(fn == 0x06 || fn == 0x07 || fn == 0x0B || fn == 0x0C || fn == 0x10)

/-- A VALU word: functions above 0x11 are reserved; X12[10:5] only for VSRA and VSLL, X12[11] never;
VSPLAT has vs1 0 to 7 and vs2[3:2] 0 (Table 10.13). -/
def decodeValu (x : Word) : Option VInstr :=
  let fn := insX12 x % 32
  let sh := insX12 x / 32
  if decide (0x11 < fn) || insAc x != 0 || decide (64 ≤ sh) || (sh != 0 && fn != 0x0B && fn != 0x0C) then none
  else if fn = 0x11 then
    (if insVs1 x ≤ 7 && insVs2 x ≤ 3 then some (.valu fn (insVd x) (insVs1 x) (insVs2 x) 0) else none)
  else if !(valuUses2 fn) && insVs2 x != 0 then none
  else some (.valu fn (insVd x) (insVs1 x) (insVs2 x) sh)

/-- The vector instruction a word spells; none for an undefined opcode, a reserved encoding, an unused
field that is not 0, or an operand its instruction does not permit (R131, R136, R256). -/
def vdecode (x : Word) : Option VInstr :=
  let vd := insVd x
  let vs1 := insVs1 x
  let vs2 := insVs2 x
  let ac := insAc x
  let k := insX12 x
  let ok := fun (b : Bool) (i : VInstr) => if b then some i else none
  match insOp x with
  | 0x30 => ok (vs1 == 0 && vs2 == 0 && ac == 0 && k / 256 % 4 == 0) (.vld vd (spaceOf (k / 1024)) (k % 256))
  | 0x31 => ok (vd == 0 && vs2 == 0 && ac == 0 && k / 256 % 4 == 0) (.vst vs1 (spaceOf (k / 1024)) (k % 256))
  | 0x32 => decodeValu x
  | 0x33 => ok (vd == 0 && decide (k < 2)) (.vmac ac vs1 vs2 (k % 2 == 1))
  | 0x34 => ok (vd == 0 && decide (k < 64)) (.vmacl ac vs1 vs2 (k / 2) (k % 2 == 1))
  | 0x35 => ok (vd == 0 && k == 0) (.vmul ac vs1 vs2)
  | 0x36 => ok (vs1 == 0 && vs2 == 0 && decide (k < 64)) (.vext vd ac k)
  | 0x37 => ok (vd == 0 && vs1 == 0 && vs2 == 0 && decide (k < 128) && k % 2 == 0) (.vlda ac k)
  | 0x38 => ok (vd == 0 && vs1 == 0 && vs2 == 0 && decide (k < 128) && k % 2 == 0) (.vsta ac k)
  | 0x39 => ok (vd == 0 && vs1 == 0 && vs2 == 0 && k == 0) (.vclra ac)
  | 0x3A => ok (vs2 == 0 && ac == 0 && k == 0 && decide (vd ≤ 13)) (.vgs vd vs1)
  | 0x3B => ok (vs2 == 0 && ac == 0 && decide (k < 128)) (.vnotch vd vs1 (k / 32) (k % 32))
  | 0x3C => ok (ac == 0 && decide (k < 8)) (.vmsel vd vs1 vs2 k)
  | 0x3D => ok (vs2 == 0 && ac == 0 && decide (k < 256)) (.vperm vd vs1 k)
  | 0x3E => match condOf vd with
    | none => none
    | some cd => ok (vs2 == 0 && ac == 0 && k != 0) (.vbr cd vs1 k)
  | 0x3F => ok (vd == 0 && vs1 == 0 && vs2 == 0 && ac == 0 && k == 0) .stop
  | _ => none

/-- Whether an instruction leaves its space's range or writes IN or PAR (R121). -/
def VInstr.badSpace : VInstr → Bool
  | .vld _ sp i => decide (spaceSize sp ≤ i)
  | .vst _ .inp _ => true
  | .vst _ .par _ => true
  | .vst _ sp i => decide (spaceSize sp ≤ i)
  | _ => false

end Sys2Proof.Machine
end

