-- ==== Sys2Proof/Machine/Hooks.lean ====
section
/-!
DEFINITION. Swarm's policy hooks (R80 to R84, R90): the check and copy of a hook bank, and the register
machine a hook runs on; and the refresh of the cell table (R86 to R88).
-/

namespace Sys2Proof.Machine

/-! ### The hook instructions (Table 10.12) -/

/-- An instruction of the hook subset. -/
inductive HInstr where
  | alu (fn rd rs1 rs2 sh : Nat)
  | const (op rd rs1 : Nat) (imm : BitVec 16)
  | br (op rs1 rs2 : Nat) (off : Nat)
  | vec (i : VInstr)
  deriving DecidableEq, Repr

/-- Why a word is no hook instruction: the SWM_HOOK.ERR code (Table 3.10). -/
abbrev HookErr := Nat
def heTooLong : HookErr := 1
def heBackward : HookErr := 2
def heDisallowed : HookErr := 3
def hePoison : HookErr := 4
def heReserved : HookErr := 5

/-- Whether a vector word's class is open to a hook (Table 10.12). -/
def hookVecOp (op : Nat) : Bool := op == 0x32 || op == 0x3E || op == 0x3F

/-- A hook instruction, or the error its word is rejected with (R82). A word of a disallowed class that is a
reserved encoding too is rejected for its class (DESIGN CHOICE: assumption 304). -/
def hookDecode (x : Word) : Except HookErr HInstr :=
  let op := insOp x
  if op = 0 then
    match aluFn (insFn x) (insRs2 x) (insSh x) 0 0 with
    | some _ => .ok (.alu (insFn x) (insRd x) (insRs1 x) (insRs2 x) (insSh x))
    | none => .error heReserved
  else if op ≤ 6 ∨ op = 8 then .ok (.const op (insRd x) (insRs1 x) (insImm16 x))
  else if op = 7 then .error heReserved
  else if 0x0C ≤ op ∧ op ≤ 0x11 then
    (if (insImm16 x).toInt ≤ 0 then .error heBackward
     else .ok (.br op (insRs1 x) (insRd x) (insImm16 x).toNat))
  else if op < 0x20 then .error heDisallowed
  else if op < 0x30 then .error heReserved
  else if hookVecOp op then
    match vdecode x with
    | some i => .ok (.vec i)
    | none => .error heReserved
  else .error heDisallowed

/-- The result of a constant instruction (Table 10.5). -/
def constOp (op : Nat) (a : Word) (i : BitVec 16) : Word :=
  match op with
  | 0x01 => a + immS i
  | 0x02 => opLt a (immS i)
  | 0x03 => opLtu a (immS i)
  | 0x04 => a &&& immZ i
  | 0x05 => a ||| immZ i
  | 0x06 => a ^^^ immZ i
  | _ => opHik a i

/-- Whether a branch is taken (Table 10.5). -/
def brTaken (op : Nat) (a b : Word) : Bool :=
  match op with
  | 0x0C => a == b
  | 0x0D => a != b
  | 0x0E => a.slt b
  | 0x0F => !(a.slt b)
  | 0x10 => a.ult b
  | _ => !(a.ult b)

/-! ### Running a hook -/

/-- A hook's general register: g0 reads 0. -/
def VecSt.gr (w : VecSt) (n : Nat) : Word := if n = 0 then 0 else tget (fun _ => 0) w.g n
def VecSt.setGr (w : VecSt) (n : Nat) (x : Word) : VecSt :=
  if n = 0 then w else { w with g := tset (fun _ => 0) n x w.g }

/-- What a hook's vector machine reads: registers only (R82). -/
def hookCtx (w : VecSt) : VCtx :=
  { inp := fun _ => 0, outC := fun _ => 0, parW := fun _ => 0, stC := fun _ => 0, gainC := fun _ => {}
    badPar := fun _ => false, badSt := fun _ => false, gReg := w.gr }

/-- One hook instruction. A taken branch skips the instructions up to its target. -/
def VecSt.hookStep (w : VecSt) (i : HInstr) : VecSt :=
  if w.ended then w
  else if 0 < w.skip then { w with skip := w.skip - 1 }
  else match i with
    | .alu fn rd rs1 rs2 sh =>
      match aluFn fn rs2 sh (w.gr rs1) (w.gr rs2) with
      | some r => w.setGr rd r.1
      | none => w
    | .const op rd rs1 imm => w.setGr rd (constOp op (w.gr rs1) imm)
    | .br op rs1 rs2 off => if brTaken op (w.gr rs1) (w.gr rs2) then { w with skip := off - 1 } else w
    | .vec v => (w.step (hookCtx w) v).1

/-- A hook run from its first instruction to END or its length (R80 to R82). A taken branch beyond the length
ends the hook (for a scalar one, DESIGN CHOICE: assumption 304). -/
def VecSt.hookRun (w : VecSt) (code : List Word) : VecSt :=
  code.foldl (fun w x => match hookDecode x with
    | .ok i => w.hookStep i
    | .error _ => w) { w with skip := 0, ended := false }

/-! ### Hook banks (R84, R90) -/

/-- Where hook bank b of arm n lies (Table 3.3). -/
def hookBank (n b : Nat) : Nat := 0x0400D000 + 0x100000 * n + 0x400 * b

/-- Words from an address on. -/
def State.words (s : State) (a n : Nat) : List Word := (List.range n).map (fun i => s.rd32 (a + 4 * i))

/-- The first error of a hook's words from an address on: code and index. -/
def State.hookScan (s : State) (a n : Nat) : Option (HookErr × Nat) :=
  (List.range n).findSome? (fun i =>
    if s.poisoned (a + 4 * i) 4 then some (hePoison, i)
    else match hookDecode (s.rd32 (a + 4 * i)) with
      | .ok _ => none
      | .error e => some (e, i))

/-- The largest lengths of the two hooks (R82). -/
def preMax : Nat := 64
def keyMax : Nat := 16

/-- The check of a hook bank: the error code, the index and whether it lies in the key hook, or none. A key hook
that is too long is found before an instruction of the pre hook (DESIGN CHOICE: assumption 304). -/
def State.hookCheck (s : State) (a : Nat) : Option (HookErr × Nat × Bool) :=
  let h := s.rd32 a
  let lp := bitsOf h 0 8
  let lk := bitsOf h 16 8
  if s.poisoned a 4 then some (hePoison, 0, false)
  else if h &&& 0xFF00FF00 != 0 then some (heReserved, 0, false)
  else if preMax < lp then some (heTooLong, preMax, false)
  else if keyMax < lk then some (heTooLong, keyMax, true)
  else match s.hookScan (a + 4) lp with
    | some (e, i) => some (e, i, false)
    | none => match s.hookScan (a + 0x200) lk with
      | some (e, i) => some (e, i, true)
      | none => none

/-- A field of arm n's engine. -/
def swmFld (n : Nat) (x : Fld) : Fld := x.up (0x4000 * n)

/-- SWM_HOOK.LOAD: the check and copy of the bank not in use starts; nothing while a load is pending
(R13, R84). -/
def hookLoad (n : Nat) (s : State) : State :=
  if s.flag (swmFld n F.SWM_HOOK_LOAD) then s
  else (s.setArm n { s.arm n with hookBusy := true }).setFlag (swmFld n F.SWM_HOOK_LOAD) true

/-- The reads of a hook bank's check: the header and the two hooks at the lengths it states, with the
corrections and the records of R25. -/
def State.hookReads (s : State) (a : Nat) : State :=
  let h := s.rd32 a
  ((s.checkRead a 4).checkRead (a + 4) (4 * min preMax (bitsOf h 0 8))).checkRead (a + 0x200)
    (4 * min keyMax (bitsOf h 16 8))

/-- The check and copy is complete: the error is reported and the bank in use stays, or the copy waits for the
admission point (R84). After a load that passes, ERR_INDEX and ERR_HOOK keep their values (DESIGN CHOICE:
assumption 304). -/
def hookLoadDone (n : Nat) (s : State) : State :=
  if (s.arm n).hookBusy then
    let a := hookBank n (1 - s.fld (swmFld n F.SWM_HOOK_ACT))
    let s := (s.setArm n { s.arm n with hookBusy := false }).hookReads a
    match s.hookCheck a with
    | some (e, i, k) =>
      let s := (s.setFld (swmFld n F.SWM_HOOK_ERR) e).setFld (swmFld n F.SWM_HOOK_ERR_INDEX) i
      (s.setFlag (swmFld n F.SWM_HOOK_ERR_HOOK) k).setFlag (swmFld n F.SWM_HOOK_LOAD) false
    | none =>
      let h := s.rd32 a
      let code : HookCode := {
        pre := s.words (a + 4) (bitsOf h 0 8), key := s.words (a + 0x200) (bitsOf h 16 8)
        bad := s.injected 5 && h &&& 0x00FF00FF != 0 }
      let s := if code.bad then s.injDone else s
      let s := s.setFld (swmFld n F.SWM_HOOK_ERR) 0
      s.setArm n { s.arm n with hookNew := some code }
  else s

/-- The copied bank becomes the one in use at an admission point (R57, R84). -/
def State.hookAdmit (s : State) (n : Nat) : State :=
  match (s.arm n).hookNew with
  | none => s
  | some code =>
    let s := s.setArm n { s.arm n with hook := code, hookNew := none }
    let s := s.setFlag (swmFld n F.SWM_HOOK_ACT) (!(s.flag (swmFld n F.SWM_HOOK_ACT)))
    s.setFlag (swmFld n F.SWM_HOOK_LOAD) false

def execHookLoad (arm : Arm) (s : State) : Host.Outcome State Fault Refusal := .next (hookLoad arm s)
def execHookLoadDone (arm : Arm) (s : State) : Host.Outcome State Fault Refusal :=
  .next (hookLoadDone arm s)

/-! ### The cell table (R86 to R88) -/

/-- Slot, FLAGS, VNOM, CAP and DELAY of an entry in memory (Table 3.4). -/
def State.tableEntry (s : State) (n slot : Nat) : Nat × Nat × Nat × Nat × Nat :=
  let a := cellTable n slot
  (slot, (s.ld8 a).toNat, s.rd16 (a + 2), s.rd16 (a + 4), s.rdN (a + 8) 4)

/-- The first check an entry fails, 0 when it passes (Table 3.9). -/
def State.entryErr (s : State) (n slot : Nat) : Nat :=
  let a := cellTable n slot
  let flags := (s.ld8 a).toNat
  if s.poisoned a 16 then 5
  else if flags.testBit 0 && s.rd16 (a + 4) == 0 then 1
  else if flags.testBit 0 && s.rd16 (a + 2) == 0 then 2
  else if decide (8 ≤ flags) || s.ld8 (a + 1) != 0 || s.rd16 (a + 6) != 0 || s.rdN (a + 12) 4 != 0 then 3
  else 0

/-- The age a slot turns stale at: AGE_MAX, 0 as 1, below 2 as 2 with alternate halves (R74, R75). -/
def State.ageMax (s : State) (n : Nat) : Nat :=
  let a := max 1 (s.swm n F.SWM_DIR_AGE_MAX)
  if s.alt then max 2 a else a

/-- UNAV of a slot with the given number of slots and table flags (R75, Table 3.5). -/
def State.unavWith (s : State) (n slots slot flags : Nat) : Nat :=
  let id := cellId n slot
  (if decide (slots ≤ slot) || !(flags.testBit 0) then 1 else 0) +
  (if flags.testBit 2 then 2 else 0) +
  (if s.laneUsable n (slot / 128) then 0 else 4) +
  (if s.ageMax n ≤ (s.cell id).age then 8 else 0) +
  (if s.cfActive id then 16 else 0)

/-- UNAV of a slot (R75). -/
def State.unav (s : State) (n slot : Nat) : Nat := s.unavWith n (s.nSlots n) slot (s.cell (cellId n slot)).flags

/-- The slots a refresh copies: N_SLOTS as last written, since the copy switches in at the admission
point at which that value takes effect too (R57, R87; DEDUCED). -/
def State.tableSlots (s : State) (n : Nat) : Nat := s.fld (swmFld n F.SWM_CFG_N_SLOTS)

/-- The slots that would be available with the table in memory. -/
def State.availIn (s : State) (n : Nat) : Nat :=
  ((List.range (s.tableSlots n)).filter (fun i => s.unavWith n (s.tableSlots n) i (s.ld8 (cellTable n i)).toNat == 0)).length

/-- The check of a refresh: code and slot, or none (R87, R88). -/
def State.tableCheck (s : State) (n : Nat) : Option (Nat × Nat) :=
  match (List.range (s.tableSlots n)).find? (fun i => s.entryErr n i != 0) with
  | some i => some (s.entryErr n i, i)
  | none =>
    if !s.quiet && decide (s.availIn n < s.fld (swmFld n F.SWM_CFG_N_MIN)) then some (4, 0) else none

/-- SWM_TBL.REFRESH (R87). -/
def refresh (n : Nat) (s : State) : State := s.requestRefresh n

/-- The copy is complete: the error and slot are reported, or the new table waits for the admission
point (R87). -/
def refreshDone (n : Nat) (s : State) : State :=
  if (s.arm n).refresh then
    let s := s.setArm n { s.arm n with refresh := false }
    let s := s.checkRead (cellTable n 0) (16 * s.tableSlots n)
    match s.tableCheck n with
    | some (e, i) =>
      ((s.setFld (swmFld n F.SWM_TBL_ERR) e).setFld (swmFld n F.SWM_TBL_ERR_SLOT) i).setFlag
        (swmFld n F.SWM_TBL_REFRESH) false
    | none =>
      let s := s.setFld (swmFld n F.SWM_TBL_ERR) 0
      s.setArm n { s.arm n with tableNew := some ((List.range (s.tableSlots n)).map (s.tableEntry n)) }
  else s

/-- No refresh completes within 1,000 sweeps of its request (R88). -/
def tblStarved (n : Nat) (s : State) : State :=
  if (s.arm n).refresh && decide (1000 ≤ (s.arm n).refreshSweeps) then
    s.setFlag (swmFld n F.SWM_TBL_STARVED) true
  else s

def execRefresh (arm : Arm) (s : State) : Host.Outcome State Fault Refusal := .next (refresh arm s)
def execRefreshDone (arm : Arm) (s : State) : Host.Outcome State Fault Refusal :=
  .next (refreshDone arm s)
def execTblStarved (arm : Arm) (s : State) : Host.Outcome State Fault Refusal :=
  .next (tblStarved arm s)

/-- The checked table becomes the working copy at an admission point (R57, R87). -/
def State.tableAdmit (s : State) (n : Nat) : State :=
  match (s.arm n).tableNew with
  | none =>
    if (s.arm n).refresh then s.setArm n { s.arm n with refreshSweeps := (s.arm n).refreshSweeps + 1 } else s
  | some l =>
    let s := forL l (fun e s =>
      let id := cellId n e.1
      s.setCell id { s.cell id with
        flags := e.2.1, vnom := e.2.2.1, cap := e.2.2.2.1, delay := e.2.2.2.2, calDelay := none }) s
    let s := s.setArm n { s.arm n with tableNew := none }
    (s.setFlag (swmFld n F.SWM_TBL_DONE) true).setFlag (swmFld n F.SWM_TBL_REFRESH) false

end Sys2Proof.Machine
end

