-- ==== Sys2Proof/Machine/Hornet.lean ====
section
/-!
DEFINITION. Hornet (chapter 5): its run and the commit of a run, the input image, the checks of program
banks and parameter pages, and the vector instructions as commands of their own.
-/

namespace Sys2Proof.Machine

/-! ### Windows -/

def bankAct (s : State) : Nat := s.fld F.HRN_BANK_ACT
def pageAct (s : State) : Nat := s.fld F.HRN_PAR_ACT
/-- Where program bank b and parameter page b lie (Table 5.10). -/
def bankOff (b : Nat) : Nat := R.HRN_BANK0 + 0x4000 * b
def pageOff (b : Nat) : Nat := R.HRN_PAGE0 + 0x8000 * b

/-- Whether a word of an HRN window is poisoned. -/
def State.hrnBad (s : State) (off : Nat) : Bool := s.hrn.poison.contains off

/-- What Hornet's run reads that it does not change. -/
def hornetCtx (s : State) : VCtx :=
  { inp := fun k => tget (fun _ => 0) s.hrn.inp k
    outC := fun k => s.reg (R.HRN_OUT + 4 * k)
    parW := fun k => s.reg (pageOff (pageAct s) + 4 * k)
    stC := fun k => s.reg (R.HRN_ST + 4 * k)
    gainC := fun m => tget (fun _ => {}) s.hrn.gains m
    badPar := fun k => s.hrnBad (pageOff (pageAct s) + 4 * k)
    badSt := fun k => s.hrnBad (R.HRN_ST + 4 * k)
    gReg := fun _ => 0 }

/-- The vector instruction a word of a Hornet program spells: the subset leaves VSPLAT out (Table
10.12). -/
def hornetDecode (x : Word) : Option VInstr :=
  match vdecode x with
  | some (.valu 0x11 ..) => none
  | r => r

/-! ### The run (R119 to R125, R151) -/

/-- The engine at the start of a run: OUT7's lanes 24 to 31 cleared over the committed outputs (R123). -/
def runStart (c : VCtx) : VecSt :=
  forN 8 (fun g w => w.setOut c (248 + g) 0) {}

/-- LEN of the bank in use. -/
def bankLen (s : State) (b : Nat) : Nat := bitsOf (s.reg (bankOff b)) 0 12

/-- The run of the bank in use, instruction by instruction: a word that is poisoned or fails its check bits
stops it (R151, R377). Words that a taken VBR passes over are not read. With LEN 0 nothing is executed, and
the run completes (DESIGN CHOICE: assumption 301). -/
def runProgram (s : State) (c : VCtx) : VecSt × Bool :=
  (List.range (bankLen s (bankAct s))).foldl (fun (p : VecSt × Bool) i =>
    let off := bankOff (bankAct s) + 0x10 + 4 * i
    if p.2 || p.1.ended then p
    else if 0 < p.1.skip then ({ p.1 with skip := p.1.skip - 1 }, false)
    else if s.hrnBad off then (p.1, true)
    else match hornetDecode (s.reg off) with
      | some v => p.1.step c v
      | none => (p.1, true)) (runStart c, false)

/-- A run that stopped on a fault: EXEC_FAULT and HRN_EXEC; the chain stays incomplete (R151). -/
def State.runFault (s : State) : State :=
  ({ s with hrn := { s.hrn with faulted := true } }.setFlag F.HRN_STAT_EXEC_FAULT true).report 0x0F 0

/-- HORNET_RUN: the run of an admitted sweep; with EXEC_EN 0 nothing runs and the committed outputs
stay (R119, R124). -/
def hornetRun (s : State) : State :=
  if s.crk.stage = .admitted && !s.hrn.faulted then
    if s.flag F.HRN_CTL_EXEC_EN then
      let r := runProgram s (hornetCtx s)
      let s := { s with hrn := { s.hrn with work := r.1, ran := true, ns := Config.freeRunNs s.free } }.draw
      if r.2 then s.runFault else { s with crk := { s.crk with stage := .hornetDone } }
    else { s with hrn := { s.hrn with work := {}, ran := false }, crk := { s.crk with stage := .hornetDone } }
  else s

def execHornetRun (s : State) : Host.Outcome State Fault Refusal := .next (hornetRun s)

/-- OUT as the present run leaves it, before its commit: what Swarm takes (R55, R124). -/
def State.outNow (s : State) (v m : Nat) : Word := s.hrn.work.outW (hornetCtx s) (32 * v + m)

/-- The lowest lane of a mask. -/
def lowestLane (w : Word) : Nat := ((List.range 32).find? (fun m => w.getLsbD m)).getD 0

/-- The regions of all lanes as committed (R138). -/
def State.setRegions (s : State) : State :=
  forN 32 (fun m s => s.setFld ⟨R.HRN_REGION + 4 * (m / 8), 4 * (m % 8), 4⟩
    (tget (fun _ => {}) s.hrn.gains m).region) s

/-- HRN_SUP mirrors OUT2 lane 31 as committed (R128). -/
def State.setSup (s : State) : State := s.setReg R.HRN_SUP (s.reg (R.HRN_OUT + 4 * (32 * 2 + 31)) &&& 7)

/-- A word of a Hornet window written: it is no longer poisoned (R152). -/
def hrnWord (off : Nat) (data : Word) (s : State) : State :=
  { s.setReg off data with hrn := { s.hrn with poison := kdel off s.hrn.poison } }

/-- The commit of a run: ST, OUT, the gain schedules and the run's status become the committed ones
(R122, R125, R128, R132, R135). -/
def hornetCommit (s : State) : State :=
  let s := forN 256 (fun k s => s.setReg (R.HRN_IN + 4 * k) (tget (fun _ => 0) s.hrn.inp k)) s
  if s.hrn.ran then
    let w := s.hrn.work
    let s := forL w.st (fun e s => s.setReg (R.HRN_ST + 4 * e.1) e.2) s
    let s := forL w.out (fun e s => s.setReg (R.HRN_OUT + 4 * e.1) e.2) s
    let gains := forL w.gains (fun e t => tset (fun _ => {}) e.1 e.2 t) s.hrn.gains
    let poison := s.hrn.poison.filter (fun o => !(w.cleared.any (fun k => R.HRN_ST + 4 * k == o)))
    let s := { s with hrn := { s.hrn with gains := gains, poison := poison, work := {}, ran := false } }
    let s := s.setRegions.setSup
    let ns := min 1023 s.hrn.ns
    let s := s.setFld F.HRN_TIME_LAST_NS ns
    let s := s.setFld F.HRN_TIME_MAX_NS (max ns (s.fld F.HRN_TIME_MAX_NS))
    let s := (s.setFld F.HRN_CNT_INSTR w.instrs).setFld F.HRN_CNT_MACS w.macs
    let s := s.setReg R.HRN_SAT_LANES (s.reg R.HRN_SAT_LANES ||| w.satLanes)
    let s := s.setReg R.HRN_GOV_LANES (s.reg R.HRN_GOV_LANES ||| w.govLanes)
    let s := if w.satLanes = 0 then s else s.setFlag F.HRN_STAT_SAT true
    if w.govLanes = 0 || s.flag F.HRN_STAT_GOV then s
    else (s.setFlag F.HRN_STAT_GOV true).report 0x0E (lowestLane (s.reg R.HRN_GOV_LANES))
  else s

/-- The results of a late run are discarded (R122); its fault keeps the program from running again in the
sweep (R119). -/
def State.hornetDiscard (s : State) : State := { s with hrn := { s.hrn with work := {}, ran := false } }

/-- A late or abandoned run is discarded (R122). -/
def State.hornetDrop (s : State) : State :=
  { s with hrn := { s.hrn with work := {}, ran := false, faulted := false } }

/-! ### The input image (R126, Table 5.2) -/

/-- The stored energy of an arm's available cells from Σ CAP × VMED², J (Table 5.2). -/
def energyJ (e : Nat) : Nat := e / (2 * 10 ^ 8)

/-- The input image of the sweep admitted now, by lane. -/
def State.inputs (s : State) : Tab Word :=
  let put := fun (k : Nat) (x : Word) (t : Tab Word) => tset (fun _ => 0) k x t
  let n32 := fun (x : Nat) => BitVec.ofNat 32 x
  let t := forN 64 (fun k t => put k (BitVec.ofInt 32 (s.lslot k).outW) t) []
  let t := forN 6 (fun n t =>
    let a := 0x4000 * n
    let t := put (64 + n) (n32 (s.arm n).vsum) t
    let t := put (64 + 8 + n) (n32 (s.fld (F.SWM_COUNT_N_AVAIL.up a))) t
    let t := put (64 + 16 + n) (n32 (energyJ (s.arm n).energy)) t
    let t := put (96 + n) (s.reg (R.SWM_VREF + a) - s.reg (R.SWM_VERR + a)) t
    put (96 + 8 + n) (s.reg (R.SWM_STAT + a) &&& 0x3F) t) t
  let half := if s.alt then s.sweep.toNat % 2 else 2
  let valid := fun (i : Nat) => laneMask (fun m => (s.lslot (32 * i + m)).validW)
  let t := put 128 s.sweep t
  let t := put 129 (n32 s.opState) t
  let t := put 130 (n32 (s.fld F.CRK_FLY_FLY_THR)) t
  let t := put 131 s.shortTime t
  let t := put 132 (n32 s.period) t
  let t := put 133 (n32 half) t
  let t := put 134 (n32 (s.fld F.CRK_ARMS_ARM_EN)) t
  let t := put 136 (valid 0) t
  let t := put 137 (valid 1) t
  forN 96 (fun k t => put (160 + k) (tget (fun _ => 0) s.hrn.mgmt k) t) t

/-! ### Enable, publish and timing (R124 to R126) -/

/-- A pending write of EXEC_EN takes effect. -/
def State.exApply (s : State) : State :=
  match s.hrn.exPend with
  | some v => { s with hrn := { s.hrn with exPend := none } }.setFlag F.HRN_CTL_EXEC_EN v
  | none => s

/-- A write of HRN_CTL.EXEC_EN (R124). With CRK_CTL.RUN at 0 it takes effect at once, but a sweep that
has been admitted commits first, so that its run overwrites no firmware write of ST (R152). -/
def execEnWrite (v : Bool) (s : State) : State :=
  if !v && !s.quiet then s.rejWrite R.HRN_CTL
  else
    let s := { s with hrn := { s.hrn with exPend := some v } }
    if !s.running && s.crk.commitDue.isNone then s.exApply else s

def execExecEnWrite (src : Src) (v : Bool) (s : State) : Host.Outcome State Fault Refusal :=
  match src with
  | _ => .next (execEnWrite v s)

/-- HRN_CTL.PUBLISH (R126). -/
def publish (s : State) : State := s.setFlag F.HRN_CTL_PUBLISH true
def execPublish (s : State) : Host.Outcome State Fault Refusal := .next (publish s)

/-- HRN_CTL.TMAX_CLR (R125). -/
def tmaxClr (s : State) : State := s.setFld F.HRN_TIME_MAX_NS 0
def execTmaxClr (s : State) : Host.Outcome State Fault Refusal := .next (tmaxClr s)

/-! ### Parameter pages (R143, R148) -/

/-- A word of a page. -/
def State.pageW (s : State) (b k : Nat) : Word := s.reg (pageOff b + 4 * k)

/-- The first error of lane m's gain table: its code, 0 when it passes (R148, Table 5.5). -/
def State.laneErr (s : State) (b m : Nat) : Nat :=
  let w := fun i => s.pageW b (gainBase m + i)
  let nreg := bitsOf (w 0) 4 4 + 1
  let bp := fun r => (w (1 + r)).toInt
  if (List.range (nreg - 2)).any (fun i => decide (bp (i + 2) ≤ bp (i + 1))) then 1
  else if (w 1).toInt < 0 then 2
  else if (List.range nreg).any (fun r =>
      decide ((w (32 + 4 * r + 2)).toInt < 0) || decide (0x40000000 < (w (32 + 4 * r + 2)).toInt)) then 6
  else if (w 0) &&& 0xFFF0000E != 0 || (List.range 15).any (fun i => w (17 + i) != 0) ||
      (List.range 16).any (fun r => w (32 + 4 * r + 3) != 0) then 8
  else 0

/-- The lanes of group g's MASK, and whether it is enabled. -/
def State.grpMask (s : State) (b g : Nat) : Word := s.pageW b (0xE80 + 4 * g)
def State.grpEn (s : State) (b g : Nat) : Bool := (s.pageW b (0xE80 + 4 * g + 1)).getLsbD 31
def popCount (x : Word) : Nat := ((List.range 32).filter (fun i => x.getLsbD i)).length

/-- The first error of group g: its code, 0 when it passes (R143, Table 5.7). -/
def State.grpErr (s : State) (b g : Nat) : Nat :=
  let m := s.grpMask b g
  let n := popCount m
  let en := s.grpEn b g
  if en && (decide (n < 2) || decide (8 < n)) then 3
  else if en && (List.range g).any (fun h => s.grpEn b h && (s.grpMask b h &&& m) != 0) then 4
  else if en && decide ((s.pageW b (0xE80 + 4 * g + 3)).toInt < (s.pageW b (0xE80 + 4 * g + 2)).toInt) then 5
  else if (s.pageW b (0xE80 + 4 * g + 1)) &&& 0x7FFFFFFE != 0 then 8
  else 0

/-- The lane or group that a word of a page belongs to: of a gain table, of the notch coefficients, of a
group's entry; 0 for any other (Table 5.6). -/
def pageLane (k : Nat) : Nat :=
  if k < 0xC00 then k / 96 else if k < 0xE80 then (k - 0xC00) / 20
  else if k < 0xEA0 then (k - 0xE80) / 4 else 0

/-- The check of a page: code and lane or group, or none (R148). A poisoned word comes first, the lowest
one of several. -/
def State.pageCheck (s : State) (b : Nat) : Option (Nat × Nat) :=
  match s.hrn.poison.find? (fun o => decide (pageOff b ≤ o) && decide (o < pageOff b + 0x8000)) with
  | some o => some (7, pageLane ((o - pageOff b) / 4))
  | none => match (List.range 32).find? (fun m => s.laneErr b m != 0) with
    | some m => some (s.laneErr b m, m)
    | none => match (List.range 8).find? (fun g => s.grpErr b g != 0) with
      | some g => some (s.grpErr b g, g)
      | none =>
        if (List.range 352).any (fun i => s.pageW b (0xEA0 + i) != 0) then some (8, 0) else none

def State.parErr (s : State) (e : Nat × Nat) : State :=
  (s.setFld F.HRN_PAR_ERR e.1).setFld F.HRN_PAR_ERR_LANE e.2

/-- HRN_PAR.SWAP: the check of the page not in use starts (R148). -/
def hrnParSwap (s : State) : State :=
  if s.flag F.HRN_PAR_SWAP then s
  else { s with hrn := { s.hrn with par := .running } }.setFlag F.HRN_PAR_SWAP true

/-- The page check is complete (R148). -/
def hrnParCheckDone (s : State) : State :=
  if s.hrn.par = .running then
    match s.pageCheck (1 - pageAct s) with
    | some e => { s.parErr e with hrn := { s.hrn with par := .none } }.setFlag F.HRN_PAR_SWAP false
    | none => { s.parErr (0, 0) with hrn := { s.hrn with par := .passed } }
  else s

def execHrnParSwap (s : State) : Host.Outcome State Fault Refusal := .next (hrnParSwap s)
def execHrnParCheckDone (s : State) : Host.Outcome State Fault Refusal := .next (hrnParCheckDone s)

/-! ### Program banks (R120, R149) -/

/-- The error of one word of a program, with the number of MAC-class words before it (R120, R121). -/
def wordErr (x : Word) (macs : Nat) : Nat :=
  match hornetDecode x with
  | none => 4
  | some i => if i.badSpace then 5 else if i.isMac && decide (640 ≤ macs) then 3 else 0

/-- The first error among a program's words, each with whether it is poisoned: code and index. -/
def progErr : List (Word × Bool) → Nat → Nat → Option (Nat × Nat)
  | [], _, _ => none
  | (x, bad) :: r, i, macs =>
    if bad then some (6, i)
    else if wordErr x macs ≠ 0 then some (wordErr x macs, i)
    else progErr r (i + 1) (match hornetDecode x with
      | some v => if v.isMac then macs + 1 else macs
      | none => macs)

/-- The words of a bank's program, with their poison. -/
def State.progWords (s : State) (b : Nat) : List (Word × Bool) :=
  (List.range (bankLen s b)).map (fun i =>
    (s.reg (bankOff b + 0x10 + 4 * i), s.hrnBad (bankOff b + 0x10 + 4 * i)))

/-- The check of a bank: code and index, or none (R149). A poisoned header word has index 0. -/
def State.bankCheck (s : State) (b : Nat) : Option (Nat × Nat) :=
  if (List.range 4).any (fun i => s.hrnBad (bankOff b + 4 * i)) then some (6, 0)
  else if bankLen s b = 0 ∨ 2048 < bankLen s b then some (1, 0)
  else progErr (s.progWords b) 0 0

def State.bankErr (s : State) (e : Nat × Nat) : State :=
  (s.setFld F.HRN_BANK_ERR e.1).setFld F.HRN_BANK_ERR_INDEX e.2

/-- HRN_BANK.LOAD: the check of the bank not in use starts (R149). WITH_PAR counts as it stands now, for the
check and for the swap (DESIGN CHOICE: assumption 93). -/
def hrnBankLoad (s : State) : State :=
  if s.flag F.HRN_BANK_LOAD then s
  else { s with hrn := { s.hrn with bank := .running, bankPar := s.flag F.HRN_BANK_WITH_PAR } }.setFlag
    F.HRN_BANK_LOAD true

/-- A rejected load leaves the bank in use unchanged. -/
def State.bankReject (s : State) (e : Nat × Nat) : State :=
  { s.bankErr e with hrn := { s.hrn with bank := .none } }.setFlag F.HRN_BANK_LOAD false

/-- The bank check is complete; a failing page rejects both (R149). -/
def hrnBankCheckDone (s : State) : State :=
  if s.hrn.bank = .running then
    match s.bankCheck (1 - bankAct s) with
    | some e => s.bankReject e
    | none =>
      match (if s.hrn.bankPar then s.pageCheck (1 - pageAct s) else none) with
      | some e => (s.parErr e).bankReject (7, 0)
      | none =>
        let s := if s.hrn.bankPar then s.parErr (0, 0) else s
        { s.bankErr (0, 0) with hrn := { s.hrn with bank := .passed } }
  else s

def execHrnBankLoad (s : State) : Host.Outcome State Fault Refusal := .next (hrnBankLoad s)
def execHrnBankCheckDone (s : State) : Host.Outcome State Fault Refusal := .next (hrnBankCheckDone s)

/-- A write to a bank or page under check, or to one that has passed and waits, starts the check again
and sets DIRTY: of the bank for a check of LOAD, of the page for a check of the page by SWAP or by a LOAD
with WITH_PAR (R148, R149). `page` says which window was written. -/
def State.recheck (s : State) (page : Bool) : State :=
  let s := if s.hrn.bank != .none && (!page || s.hrn.bankPar) then
      { s with hrn := { s.hrn with bank := .running } }.setFlag F.HRN_BANK_DIRTY true else s
  if page && (s.hrn.par != .none || (s.hrn.bank != .none && s.hrn.bankPar)) then
    { s with hrn := { s.hrn with par := if s.hrn.par == Check.none then Check.none else .running } }.setFlag
      F.HRN_PAR_DIRTY true
  else s

/-! ### Hornet at an admission point (R124, R126, R139, R148, R149) -/

/-- The swaps that passed take effect: the bank, and the page once (R148, R149); a page swap marks
every lane for re-selection (R139). -/
def State.hrnSwap (s : State) : State :=
  let b := s.hrn.bank == .passed
  let p := s.hrn.par == .passed
  let page := p || (b && s.hrn.bankPar)
  let s := if b then
      let s := s.setFld F.HRN_BANK_ACT (1 - bankAct s)
      (s.setFlag F.HRN_BANK_LOAD false).setFlag F.HRN_STAT_BANK_DONE true
    else s
  let s := if page then
      let s := (s.setFld F.HRN_PAR_ACT (1 - pageAct s)).setFlag F.HRN_STAT_PAR_DONE true
      let gains := forN 32 (fun m t =>
        tset (fun _ => {}) m { tget (fun _ => {}) t m with mark := true } t) s.hrn.gains
      { s with hrn := { s.hrn with gains := gains } }
    else s
  let s := if p then s.setFlag F.HRN_PAR_SWAP false else s
  { s with hrn := { s.hrn with
    bank := if b then .none else s.hrn.bank, par := if p then .none else s.hrn.par } }

/-- Whether the module takes its state from records: a STANDBY or ARMING one that has received one (R339). -/
def State.mirrors (s : State) : Bool :=
  (s.role == roleStandby || s.role == roleArming) && !s.twn.record.isEmpty

/-- PUBLISH and EXEC_EN at an admission point, the swaps, and the input image of the sweep. On a module that
takes IN5 to IN7 from records these stand, and not its own staging copy (R339) (DEDUCED: assumption 119). -/
def hornetAdmit (s : State) : State :=
  let s := s.exApply
  let s := if s.flag F.HRN_CTL_PUBLISH then
      let m := forN 96 (fun k t => tset (fun _ => 0) k (s.reg (R.HRN_STAGE + 4 * k)) t) ([] : Tab Word)
      { s with hrn := { s.hrn with mgmt := if s.mirrors then s.hrn.mgmt else m } }.setFlag F.HRN_CTL_PUBLISH false
    else s
  let s := s.hrnSwap.hornetDrop
  { s with hrn := { s.hrn with inp := s.inputs } }

end Sys2Proof.Machine
end

