-- ==== Sys2Proof/Machine/Swarm.lean ====
section
/-!
DEFINITION. Swarm's selection and its timed edges (chapters 3 and 4): filtering and prediction (R60 to
R63), direction and keys (R64, R65, R80 to R83), count, final set and fraction (R66 to R73), precharge
balancing and arm test (R78, R79, R102), commands of unavailable slots (R114), edge placement (R97 to
R101), and the commit of a sweep's results (R40, R42, R62, R77, R89, R91).
-/

namespace Sys2Proof.Machine

/-! ### Filtering and prediction (R60 to R62) -/

/-- How many reports the filter of SWM_CTL.MED needs. -/
def medNeed (med : Nat) : Nat := if med = 0 then 1 else if med = 1 then 3 else 5

/-- The middle one of a list of odd length. -/
def medianOf (l : List Nat) : Nat := (sortBy (fun a b => decide (a ≤ b)) l).getD (l.length / 2) 0

/-- VMED in 0.1 V: the median of the newest reports, or the newest one until enough have arrived (R60). -/
def CellSt.vmed (c : CellSt) (med : Nat) : Nat :=
  if c.nValid < medNeed med then c.raws.headD 0 else medianOf (c.raws.take (medNeed med))

/-- The sign with which a cell state counts, for an arm current (R62). -/
def stateSign (code : Nat) (fb : Bool) (i : Int) : Int :=
  if code = codeInserted then 1
  else if code = codeNegative then -1
  else if code = codeBlocked then (if 0 < i then 1 else if fb && decide (i < 0) then -1 else 0)
  else 0

/-- The signed time, ps, from `t0` up to `up` over a history of states, newest first; before its oldest
entry the cell was Blocked. -/
def signedTime (sign : Nat → Int) (t0 : Int) : Int → List (Nat × Nat) → Int
  | up, [] => sign codeBlocked * max 0 (up - t0)
  | up, (c, a) :: r => sign c * max 0 (up - max (a : Int) t0) + signedTime sign t0 (min up a) r

/-- VPRED in mV, for the middle of the window of the next sweep (R61, R62). Of a slot with
no valid report it runs from instant 0, and a CAP of 0 leaves the voltage alone (DESIGN CHOICE: assumption 305). -/
def State.vpredOf (s : State) (n : Nat) (c : CellSt) (vmed : Nat) (i : Int) : Int :=
  if s.swm n F.SWM_CTL_PRED_EN = 1 then
    let t0 : Int := (c.repAt : Int) - s.swm n F.SWM_PRED_AGE_NS * 1000
    let t1 : Int := (s.crk.admAt + 1500 * s.period + 1000 * s.fld F.CRK_WIN_WIN_OFF : Nat)
    let t := signedTime (fun x => stateSign x (c.flags.testBit 1) i) t0 t1 c.hist
    100 * (vmed : Int) + tdiv (i * t) (1000000 * c.cap)
  else 100 * (vmed : Int)

/-! ### What an arm's Swarm sees of a slot -/

/-- One slot in use: UNAV and Permanent bypass as at the admission point, whether the cell is
full-bridge, its state at the end of the window of sweep k, its voltages, and whether the sweep
addresses it (R36). -/
structure SlotIn where
  slot : Nat
  unav : Nat := 0
  perm : Bool := false
  fb : Bool := false
  prev : Nat := 0
  vmed : Nat := 0
  vpred : Int := 0
  adr : Bool := true
  deriving DecidableEq, Repr

/-- Whether the slot is available (R75). -/
def SlotIn.avail (x : SlotIn) : Bool := x.unav == 0

/-- The half a slot lies in. -/
def slotHalf (slot : Nat) : Nat := slot % 128 / 64

/-- Whether the present sweep addresses a slot (R36). -/
def State.addressed (s : State) (slot : Nat) : Bool :=
  !s.alt || slotHalf slot == s.sweep.toNat % 2

/-- The slots in use of an arm, for an arm current. A slot whose Permanent bypass record has been cleared, or
whose cell has reported a state that no command leads to, is taken as Blocked (DESIGN CHOICE: assumption 239).
-/
def State.slotsIn (s : State) (n : Nat) (i : Int) : List SlotIn :=
  (List.range (s.nSlots n)).map (fun k =>
    let c := s.cell (cellId n k)
    let v := c.vmed (s.swm n F.SWM_CTL_MED)
    { slot := k, unav := c.unav, perm := c.perm, fb := c.flags.testBit 1
      prev := if decide (codeNegative < c.endState) && !c.perm then codeBlocked else c.endState
      vmed := v, vpred := s.vpredOf n c v i, adr := s.addressed k })

/-! ### Direction, keys and candidates (R63 to R65, R71, R73) -/

/-- Discharging (true) or charging, for an arm current, a polarity, the dead band in mA and the previous
sweep's direction and polarity (R64). -/
def direction (i : Int) (neg : Bool) (dead : Int) (prevDis prevNeg : Bool) : Bool :=
  let c := if neg then -i else i
  let d := if neg = prevNeg then dead else 0
  if d < c then false else if c < -d then true else prevDis

/-- The state of an inserted cell of a polarity, and of the other one. -/
def insCode (neg : Bool) : Nat := if neg then codeNegative else codeInserted

/-- Whether a slot is a candidate (R63, R71, R73). -/
def SlotIn.candidate (x : SlotIn) (neg : Bool) : Bool :=
  x.avail && x.adr && decide (1000 ≤ x.vpred) && (x.fb || !neg)

/-- The key of R65, before any hook. -/
def SlotIn.key (x : SlotIn) (neg dis : Bool) (hyst : Nat) : Int :=
  (if dis then -x.vpred else x.vpred) - (if x.prev = insCode neg then (100 * hyst : Int) else 0)

/-- Candidates in key order, equal keys by rising slot. -/
def rank (l : List SlotIn) (key : SlotIn → Int) : List SlotIn :=
  sortBy (fun a b => decide (key a < key b) || (key a == key b && decide (a.slot ≤ b.slot))) l

/-- N and saturation for candidates in key order and the voltage to reach (R66). -/
def countTarget (lim : Int) : Int → List SlotIn → Nat × Bool
  | _, [] => (0, true)
  | sum, x :: r =>
    if sum + x.vpred ≤ lim then
      let c := countTarget lim (sum + x.vpred) r
      (c.1 + 1, c.2)
    else (0, false)

/-! ### The final set (R69) -/

/-- The changes of a sweep by the groups of Table 4.3, by slot, whether it was edge-limited, and
whether it has a fractional cell. -/
structure Plan where
  leave : List Nat := []
  cntAdd : List Nat := []
  cntRem : List Nat := []
  swpAdd : List Nat := []
  swpRem : List Nat := []
  edgeLim : Bool := false
  /-- the edge budget, and not SWAP_MAX, ended the swaps -/
  full : Bool := false
  deriving DecidableEq, Repr

/-- The edge budget b (R69). -/
def edgeBudget (period sep edgeMax : Nat) : Nat :=
  min (min 96 (max 4 (min 96 edgeMax))) (period / sep) - 2

/-- The steps of R69. `order`: candidates by key; `t`: the target set; `p`, `o`: slots inserted with
the present and with the other polarity, rising. -/
def finalPlan (order t p o : List Nat) (b swapMax : Nat) : Plan :=
  let leave := o.filter (fun x => !(t.contains x))
  let pDown := p.filter (fun x => !(order.contains x)) ++ (order.filter (fun x => p.contains x)).reverse
  if b ≤ leave.length then { leave := leave.take b, edgeLim := true }
  else
    let r := b - leave.length
    let up := t.length - p.length
    let down := p.length - t.length
    if r < up then
      { leave := leave, cntAdd := (order.filter (fun x => !(p.contains x))).take r, edgeLim := true }
    else if r < down then { leave := leave, cntRem := pDown.take r, edgeLim := true }
    else
      let adds := t.filter (fun x => !(p.contains x))
      let rems := pDown.filter (fun x => !(t.contains x))
      let room := (r - (up + down)) / 2
      let w := min (min room swapMax) (min adds.length rems.length)
      { leave := leave
        full := decide (room ≤ swapMax)
        cntAdd := adds.take up, swpAdd := (adds.drop up).take w
        cntRem := rems.take down, swpRem := (rems.drop down).take w }

/-- The plan of the first sweep of Deblocked, which no budget limits (R59). -/
def entryPlan (t p o : List Nat) : Plan :=
  { leave := o.filter (fun x => !(t.contains x))
    cntAdd := t.filter (fun x => !(p.contains x))
    cntRem := p.filter (fun x => !(t.contains x)) }

/-- F, less the cells fixed by alternate-half operation. -/
def Plan.final (q : Plan) (p : List Nat) : List Nat :=
  (p ++ q.cntAdd ++ q.swpAdd).filter (fun x => !(q.cntRem.contains x) && !(q.swpRem.contains x))

/-- The pairs of group 3 (Table 4.3): removal first for even pairs, insertion first for odd ones. -/
def swapPairs (ins : Nat) : Nat → List Nat → List Nat → List (Nat × Nat)
  | i, a :: as, r :: rs =>
    (if i % 2 = 0 then [(r, codeBypassed), (a, ins)] else [(a, ins), (r, codeBypassed)]) ++
      swapPairs ins (i + 1) as rs
  | _, _, _ => []

/-- Groups 1 to 3 of the list L, without the changes of the fractional cell (R98). -/
def Plan.changes (q : Plan) (ins : Nat) (fc : Option Nat) : List (Nat × Nat) :=
  (q.leave.map (fun x => (x, codeBypassed)) ++ q.cntAdd.map (fun x => (x, ins)) ++
    q.cntRem.map (fun x => (x, codeBypassed)) ++ swapPairs ins 0 q.swpAdd q.swpRem).filter
    (fun x => fc != some x.1)

/-! ### Edge placement (R97 to R101) -/

/-- An edge: its window time, its slot and the state it leads to. -/
structure Edge where
  et : Nat
  slot : Nat
  code : Nat
  deriving DecidableEq, Repr

/-- D from FRAC (R97). -/
def fracTime (frac p sep : Nat) : Nat :=
  let d := (frac * p + 32768) / 65536
  let d := if 2 * d < sep then 0 else if d < sep then sep else d
  min d (p - sep)

/-- The on-edge and the off-edge of the fractional cell, whose state is `prev` (R97). -/
def fracEdges (fc : Option Nat) (prev ins d : Nat) : Option Edge × Option Edge :=
  match fc with
  | none => (none, none)
  | some k =>
    if d = 0 then (none, if prev = codeBypassed then none else some ⟨0, k, codeBypassed⟩)
    else (if prev = ins then none else some ⟨0, k, ins⟩, some ⟨d, k, codeBypassed⟩)

/-- The placement of groups 1 to 3 from `t` on, with the off-edge among them: the edges in the order of
placing, and the next time (R99). -/
def placeMain (sep : Nat) (off : Option Edge) : Nat → List (Nat × Nat) → List Edge × Nat
  | t, [] => match off with
    | none => ([], t)
    | some e => ([e], max t (e.et + sep))
  | t, (k, c) :: r =>
    match off with
    | some e =>
      if e.et < t + sep then
        let q := placeMain sep none (e.et + sep + sep) r
        (e :: ⟨e.et + sep, k, c⟩ :: q.1, q.2)
      else
        let q := placeMain sep off (t + sep) r
        (⟨t, k, c⟩ :: q.1, q.2)
    | none =>
      let q := placeMain sep none (t + sep) r
      (⟨t, k, c⟩ :: q.1, q.2)

/-- Group 4 from `t` on: the edges placed and the slots deferred (R99). -/
def placeLast (p sep : Nat) : Nat → List (Nat × Nat) → List Edge × List Nat
  | _, [] => ([], [])
  | t, (k, c) :: r =>
    if p < t + sep then ([], k :: r.map (fun x => x.1))
    else
      let q := placeLast p sep (t + sep) r
      (⟨t, k, c⟩ :: q.1, q.2)

/-- A placement of one window. -/
structure Placing where
  edges : List Edge := []
  deferred : List Nat := []
  d : Nat := 0
  adj : Bool := false
  /-- the state commanded of the slots that have no edge, where it need not be the one they are in -/
  held : Option Nat := none
  deriving DecidableEq, Repr

/-- The steps of R99 for a given D; the second component says whether groups 1 to 3 or the off-edge
pass the end of the window. -/
def placeOnce (p sep : Nat) (on off : Option Edge) (l13 l4 : List (Nat × Nat)) :
    List Edge × List Nat × Bool :=
  let m := placeMain sep off (if on.isSome then sep else 0) l13
  let e13 := on.toList ++ m.1
  let q := placeLast p sep m.2 l4
  (e13 ++ q.1, q.2, e13.any (fun e => decide (p < e.et + sep)))

/-- The D that R100 puts in place of another. -/
def fracMoved (p sep d : Nat) : Nat :=
  let lo := d / sep * sep + p % sep
  let hi := (d / sep + 1) * sep
  let near := if ((lo : Int) - d).natAbs ≤ ((hi : Int) - d).natAbs then lo else hi
  min near (p - sep)

/-- Edges outside the sweeps of R59 (R99, R100). -/
def placeEdges (p sep : Nat) (fc : Option Nat) (prev ins d : Nat) (l13 l4 : List (Nat × Nat)) : Placing :=
  let e := fracEdges fc prev ins d
  let r := placeOnce p sep e.1 e.2 l13 l4
  if r.2.2 && e.2.isSome then
    let d' := fracMoved p sep d
    let e' := fracEdges fc prev ins d'
    let r' := placeOnce p sep e'.1 e'.2 l13 l4
    { edges := r'.1, deferred := r'.2.1, d := d', adj := true }
  else { edges := r.1, deferred := r.2.1, d := d }

/-- Edges of the deblock sweep and of the block sweep: every change at 0, the off-edge at D (R101). -/
def placeAtOnce (fc : Option Nat) (prev ins d : Nat) (l : List (Nat × Nat)) : Placing :=
  let e := fracEdges fc prev ins d
  { edges := l.map (fun x => ⟨0, x.1, x.2⟩) ++ e.1.toList ++ e.2.toList, d := d }

/-! ### Commands -/

/-- The command of an unavailable slot in Deblocked and in arm test (Table 4.7). -/
def unavCode (unav : Nat) : Nat := if unav.testBit 0 then codeBlocked else codeBypassed

/-- The command of a slot from the edges of its window. The fractional cell with an insertion time
carries its state, without an edge where it is inserted already, and the second change. -/
def SlotIn.command (x : SlotIn) (q : Placing) (fc : Option Nat) (ins : Nat) : CellCmd :=
  if x.perm then { code := codePermanent }
  else if fc = some x.slot && q.d != 0 then
    { code := ins, et1 := if x.prev = ins then none else some 0, et2 := some q.d }
  else match q.edges.find? (fun e => e.slot == x.slot) with
    | some e => { code := e.code, et1 := some e.et }
    | none => { code := q.held.getD x.prev }

/-- The commands of the addressed slots. -/
def commandsOf (l : List SlotIn) (q : Placing) (fc : Option Nat) (ins : Nat) : Tab CellCmd :=
  (l.filter (fun x => x.adr)).map (fun x => (x.slot, x.command q fc ins))

/-- Group 4 of Table 4.3 from the changes that fall into it, rising by slot: deferred slots first. Of several
deferred, the one deferred first comes first (DESIGN CHOICE: assumption 278). -/
def lastGroup (deferred : List Nat) (l : List (Nat × Nat)) : List (Nat × Nat) :=
  deferred.filterMap (fun k => l.find? (fun x => x.1 == k)) ++
    l.filter (fun x => !(deferred.contains x.1))

/-- Changes of addressed slots, not in Permanent bypass, to the state a function gives. -/
def changesTo (l : List SlotIn) (f : SlotIn → Nat) : List (Nat × Nat) :=
  (l.filter (fun x => x.adr && !x.perm && f x != x.prev)).map (fun x => (x.slot, f x))

/-! ### Precharge balancing (R78) -/

/-- The changes of a precharge sweep among available slots, most pressing first. -/
def prechargeChanges (l : List SlotIn) (band b : Nat) : List (Nat × Nat) :=
  let av := l.filter (fun x => x.avail)
  let mean := (av.foldl (fun a x => a + 100 * x.vmed) 0) / av.length
  let hi := mean * (1000 + band) / 1000
  let lo := mean * (2000 + band) / 2000
  let up := av.filter (fun x => x.adr && x.prev == codeBlocked && decide (hi < 100 * x.vmed))
  let back := av.filter (fun x => x.adr && x.prev == codeBypassed && decide (100 * x.vmed < lo))
  let up := sortBy (fun (a b : SlotIn) => decide (b.vmed < a.vmed) || (a.vmed == b.vmed && decide (a.slot ≤ b.slot))) up
  let back := sortBy (fun (a b : SlotIn) => decide (a.vmed < b.vmed) || (a.vmed == b.vmed && decide (a.slot ≤ b.slot))) back
  (up.map (fun x => (x.slot, codeBypassed)) ++ back.map (fun x => (x.slot, codeBlocked))).take (b + 2)

/-! ### Arm test (R79, R102) -/

/-- The earliest time from `from_` on, not later than `last`, that keeps `sep` from every edge in a list
of window times (those of the previous window lie below 0). Candidates are the start and the times just
`sep` after an edge. -/
def earliest (sep : Nat) (last : Int) (from_ : Int) (placed : List Int) : Option Int :=
  let free := fun (t : Int) => placed.all (fun e => decide ((sep : Int) ≤ (t - e).natAbs))
  let cands := (from_ :: placed.map (fun e => e + sep)).filter (fun t => decide (from_ ≤ t) && decide (t ≤ last) && free t)
  match cands with
  | [] => none
  | c :: r => some (r.foldl min c)

/-- An arm test under way: edges placed, and entries carried into the next window. -/
structure TestSt where
  edges : List Edge := []
  carry : List (Nat × Nat) := []
  deriving DecidableEq, Repr

/-- The state a slot has after the entries so far, from the one it held. -/
def TestSt.after (w : TestSt) (slot prev : Nat) : Nat :=
  match (w.carry.filter (fun e => e.1 == slot)).getLast? with
  | some e => e.2
  | none => match w.edges.find? (fun e => e.slot == slot) with
    | some e => e.code
    | none => prev

/-- One entry: slot, code, the time asked for, whether the sweep addresses the slot. A slot that has an
edge in this window already, or an entry carried, has its next entry carried. -/
def TestSt.place (w : TestSt) (p sep : Nat) (before : List Int) (slot code at_ : Nat) (adr : Bool) : TestSt :=
  let t := if adr && !(w.edges.any (fun e => e.slot == slot)) && !(w.carry.any (fun e => e.1 == slot)) then
      earliest sep ((p : Int) - sep) at_ (before ++ w.edges.map (fun e => (e.et : Int))) else none
  match t with
  | some t => { w with edges := w.edges ++ [⟨t.toNat, slot, code⟩] }
  | none => { w with carry := w.carry ++ [(slot, code)] }

/-- Where an arm's test list lies, and one of its entries: slot, VALID, code, EDGE_NS (R90). -/
def testList (n : Nat) : Nat := 0x0400C000 + 0x100000 * n
def State.testEntry (s : State) (n i : Nat) : Nat × Bool × Nat × Nat :=
  let a := testList n + 8 * i
  (s.rd16 a % 1024, (s.rd16 a).testBit 15, (s.ld8 (a + 2)).toNat, s.rdN (a + 4) 4)

/-- Whether an entry is applied: the conditions of R79, and no poisoned word. -/
def State.testTakes (s : State) (n i : Nat) (l : List SlotIn) : Bool :=
  let e := s.testEntry n i
  !(s.poisoned (testList n + 8 * i) 8) && e.2.1 && decide (e.2.2.1 ≤ codeNegative) &&
    decide (e.2.2.2 < s.period) &&
    match l.find? (fun x => x.slot == e.1) with
    | none => false
    | some x => x.avail && (x.fb || e.2.2.1 != codeNegative)

/-- The entries of the list that are applied: slot, code and time. -/
def State.testEntries (s : State) (n : Nat) (l : List SlotIn) : List (Nat × Nat × Nat) :=
  ((List.range 96).filter (fun i => s.testTakes n i l)).map (fun i =>
    let e := s.testEntry n i
    (e.1, e.2.2.1, e.2.2.2))

/-- Whether an arm is in arm test: as CRK_STATE.ARM_TEST reads, and as it stood at the admission point
(R18, R45). -/
def State.armTestNow (s : State) (n : Nat) : Bool :=
  s.opState == stServicing && s.flagBit F.CRK_STATE_ARM_TEST n
def State.armTest (s : State) (n : Nat) : Bool :=
  s.opState == stServicing && (s.effFld F.CRK_STATE_ARM_TEST).testBit n

/-- A test list asked for, or left by a late sweep, is read for this sweep with the checks of R25, and
frozen; outside arm test it is dropped (R18, R40, R79). -/
def State.testAdmitArm (s : State) (n : Nat) : State :=
  let a := s.arm n
  if s.armTest n then
    (if a.testGo || a.testRun then
      let s := s.checkRead (testList n) 768
      let l := s.testEntries n (s.slotsIn n 0)
      s.setArm n { s.arm n with testGo := false, testRun := true, testList := l, testSkip := 96 - l.length }
     else s)
  else if a.testGo || a.testRun || !a.testCarry.isEmpty then
    (s.setArm n { a with testGo := false, testRun := false, testCarry := [] }).setFlag
      (swmFld n F.SWM_TEST_GO) false
  else s

/-- The state an arm-test slot without an edge of its own goes to: Table 4.7 when unavailable, else its
last test command. -/
def State.testHeld (s : State) (n : Nat) (x : SlotIn) : Nat :=
  if x.avail then (s.cell (cellId n x.slot)).testCode else unavCode x.unav

/-! ### One arm's sweep -/

/-- The results that every operating state shares. -/
def State.workBase (s : State) (n : Nat) (l : List SlotIn) (vref i : Int) : ArmWork :=
  let av := l.filter (fun x => x.avail)
  let a := s.arm n
  { vmed := l.map (fun x => (x.slot, x.vmed)), vpred := l.map (fun x => (x.slot, x.vpred))
    deferred := [], dirDis := a.dirDis, polNeg := a.polNeg, nAvail := av.length
    vref := vref, iarm := i, verr := vref
    vsum := av.foldl (fun t x => t + x.vmed) 0
    energy := av.foldl (fun t x => t + (s.cell (cellId n x.slot)).cap * x.vmed * x.vmed) 0 }

/-- The results with a placement put in: commands, edges, and what is deferred. Slots that the sweep
does not address stay deferred. -/
def State.workPlaced (s : State) (n : Nat) (w : ArmWork) (l : List SlotIn) (q : Placing)
    (fc : Option Nat) (ins : Nat) : ArmWork :=
  let keep := (s.arm n).deferred.filter (fun k => !(s.addressed k))
  { w with
    cmds := commandsOf l q fc ins
    deferred := keep ++ q.deferred
    edges := q.edges.map (fun e => e.et)
    defer := !q.deferred.isEmpty
    dNs := q.d, adj := q.adj }

/-- The edge separation and the budget of an arm. -/
def State.sep (s : State) (n : Nat) : Nat := s.swm n F.SWM_EDGE_SEP_NS
def State.budget (s : State) (n : Nat) : Nat :=
  edgeBudget s.period (s.sep n) (s.swm n F.SWM_SEL_EDGE_MAX)

/-- The halves that the present sweep addresses, as bits of `Crk.dbDone`. -/
def State.halves (s : State) : Nat := if s.alt then 2 ^ (s.sweep.toNat % 2) else 3

/-- Whether some slots that the present sweep addresses have had no sweep of the operating state commit
in time, so that the sweep is the first of its state for them (R36, R59). -/
def State.entrySweep (s : State) : Bool := s.crk.dbDone &&& s.halves != s.halves

/-- Every slot Blocked (Table 3.1, R44, R45): at once in a block sweep of R59 (R101), else with edges placed
and deferred by the steps of R99. Tripped holds every slot at Blocked from the next commit on (R47): there the
changes that the window has no room for are commanded without an edge in it, to apply on receipt (DEDUCED:
assumption 228). -/
def State.swarmBlocked (s : State) (n : Nat) (l : List SlotIn) (vref i : Int) : ArmWork :=
  let ch := changesTo l (fun _ => codeBlocked)
  let steps := placeEdges s.period (s.sep n) none 0 0 0 [] (lastGroup (s.arm n).deferred ch)
  s.workPlaced n (s.workBase n l vref i) l
    (if s.crk.blockIn && s.entrySweep then placeAtOnce none 0 0 0 ch
     else if s.opState = stTripped then { steps with deferred := [], held := some codeBlocked }
     else steps) none 0

/-- Precharge (R78): available slots by the band, unavailable ones Blocked, which R78 says of this state against
Table 4.7 (DEDUCED: assumption 229). A slot that is still inserted, because the block sweep before could not
commit, is given that sweep's change (R59, R101), and the others wait. -/
def State.swarmPrecharge (s : State) (n : Nat) (l : List SlotIn) (vref i : Int) : ArmWork :=
  let w := s.workBase n l vref i
  let ins := l.filter (fun x => x.prev == codeInserted || x.prev == codeNegative)
  let owed := changesTo ins (fun _ => codeBlocked)
  if owed.isEmpty then
    let l13 := prechargeChanges l (s.swm n F.SWM_PRE_PRE_BAND) (s.budget n)
    let l4 := lastGroup (s.arm n).deferred (changesTo (l.filter (fun x => !x.avail)) (fun _ => codeBlocked))
    s.workPlaced n w l (placeEdges s.period (s.sep n) none 0 0 0 l13 l4) none 0
  else s.workPlaced n w l (placeAtOnce none 0 0 0 owed) none 0

/-- Arm test (R79, R102): carried entries, then the list when it is applied, then slots whose state is
not the one they hold. An entry for a slot that has become unavailable is dropped (R114). -/
def State.swarmTest (s : State) (n : Nat) (l : List SlotIn) (vref i : Int) : ArmWork :=
  let a := s.arm n
  let p := s.period
  let before : List Int := a.prevEdges.map (fun (e : Nat) => (e : Int) - (p : Int))
  let adr := fun k => s.addressed k
  let avail := fun (k : Nat) => l.any (fun x => x.slot == k && x.avail)
  let stays := fun (w : TestSt) (k c : Nat) => l.any (fun x => x.slot == k && w.after k x.prev == c)
  let put := fun (k c at_ : Nat) (w : TestSt) =>
    if stays w k c then w else w.place p (s.sep n) before k c at_ (adr k)
  let carried := a.testCarry.filter (fun e => avail e.1)
  let list := if a.testRun then a.testList else []
  let w := forL carried (fun (e : Nat × Nat) w => put e.1 e.2 0 w) ({} : TestSt)
  let w := forL list (fun (e : Nat × Nat × Nat) w => put e.1 e.2.1 e.2.2 w) w
  let named := carried.map (fun e => e.1) ++ list.map (fun e => e.1)
  let rest := changesTo (l.filter (fun x => !(named.contains x.slot))) (fun x => s.testHeld n x)
  let w := forL rest (fun (e : Nat × Nat) w => put e.1 e.2 0 w) w
  let given := forL (carried ++ list.map (fun e => (e.1, e.2.1)))
    (fun (e : Nat × Nat) (t : Tab Nat) => tset (fun _ => 0x10) e.1 e.2 t) []
  let work := s.workPlaced n (s.workBase n l vref i) l { edges := w.edges } none 0
  { work with
    tests := given
    skipped := if a.testRun then some a.testSkip else none
    carry := w.carry.filter (fun e => named.contains e.1) }

/-! ### Selection in Deblocked -/

/-- What the hooks may set (Table 3.2). -/
structure Policy where
  vref : Int
  hyst : Nat
  swapMax : Nat
  dir : Nat
  deriving DecidableEq, Repr

/-- A voltage in a 32-bit field: a free value where it does not fit. -/
def word32 (x : Int) : Word :=
  if -(2 ^ 31 : Int) ≤ x ∧ x < 2 ^ 31 then BitVec.ofInt 32 x else Config.wideWord x

/-- The vector registers of a hook run from number `r0` on, of which the hook is given none (R279). -/
def VecSt.freeRegs (w : VecSt) (f run r0 : Nat) : VecSt :=
  forN (16 - r0) (fun r w =>
    w.put (r0 + r) (fun m => Config.freeVec f (512 * run + 32 * (r0 + r) + m)) (fun _ => false)) w

/-- The pre hook's registers preset (Table 3.2). -/
def State.preStart (s : State) (vref i : Int) (avail : Nat) (q : Policy) : VecSt :=
  let half := if s.alt then s.sweep.toNat % 2 else 2
  let w := ({} : VecSt).freeRegs s.free 0 0
  ((((((((w.setGr 1 (BitVec.ofInt 32 vref)).setGr 2 (BitVec.ofInt 32 i)).setGr 3 (BitVec.ofNat 32 avail)).setGr
    4 s.sweep).setGr 5 (BitVec.ofNat 32 half)).setGr 8 (BitVec.ofInt 32 q.vref)).setGr 9
    (BitVec.ofNat 32 q.hyst)).setGr 10 (BitVec.ofNat 32 q.swapMax)).setGr 11 (BitVec.ofNat 32 q.dir)

/-- The pre hook's outputs; none when one lies outside its range (R83). -/
def preOut (w : VecSt) : Option Policy :=
  let h := (w.gr 9).toNat
  let x := (w.gr 10).toNat
  let d := (w.gr 11).toNat
  if h ≤ 65535 ∧ x ≤ 255 ∧ d ≤ 2 then some ⟨(w.gr 8).toInt, h, x, d⟩ else none

/-- The key hook's registers for block j (R81). A vector register that the hook is not given holds a
free value. -/
def keyStart (f : Nat) (j : Nat) (l : List SlotIn) (neg dis : Bool) (hyst : Nat) : VecSt :=
  let at_ := fun m => l.getD (32 * j + m) { slot := 32 * j + m, unav := 1 }
  let flag := fun (x : SlotIn) => (if x.prev = insCode neg then 1 else 0) + (if x.fb then 2 else 0) +
    (if x.avail then 4 else 0)
  let w := (({} : VecSt).setGr 1 (BitVec.ofNat 32 j))
  let w := w.put 0 (fun m => word32 (at_ m).vpred) (fun _ => false)
  let w := w.put 1 (fun m => BitVec.ofNat 32 (flag (at_ m))) (fun _ => false)
  let w := w.put 2 (fun m => word32 ((at_ m).key neg dis hyst)) (fun _ => false)
  w.freeRegs f (j + 1) 3

/-- The keys a key hook returns, by slot. -/
def keyOut (l : List SlotIn) (run : Nat → VecSt) : Tab Int :=
  l.map (fun x => (x.slot, ((run (x.slot / 32)).lane 2 (x.slot % 32)).toInt))

/-- What selection gives, before edges are placed. -/
structure Chosen where
  neg : Bool
  dis : Bool
  sat : Bool
  plan : Plan
  final : List Nat
  fixed : List Nat
  fc : Option Nat
  frac : Nat
  sF : Int
  vFc : Int
  deriving DecidableEq, Repr

/-- The sum of VPRED over slots. -/
def sumPred (l : List SlotIn) (m : List Nat) : Int :=
  l.foldl (fun a x => if m.contains x.slot then a + x.vpred else a) 0

/-- FRAC (R67). -/
def fraction (v sF vFc : Int) : Nat :=
  if v ≤ sF then 0 else min 65535 ((65536 * (v - sF)) / vFc).toNat

/-- Selection (R63 to R67, R69, R71 to R73) for a policy, the direction and the keys in force. -/
def choose (l : List SlotIn) (vref : Int) (dis entry : Bool) (key : SlotIn → Int) (b swapMax : Nat) :
    Chosen :=
  let neg := decide (vref < 0)
  let ins := insCode neg
  let v : Int := vref.natAbs
  let order := rank (l.filter (fun x => x.candidate neg)) key
  let mine := l.filter (fun x => x.avail && x.adr)
  let p := (mine.filter (fun x => x.prev == ins)).map (fun x => x.slot)
  let o := (mine.filter (fun x => x.prev == insCode (!neg))).map (fun x => x.slot)
  let fixed := (l.filter (fun x => x.avail && !x.adr && x.prev == ins)).map (fun x => x.slot)
  let c := countTarget (v - sumPred l fixed) 0 order
  let ord := order.map (fun x => x.slot)
  let t := ord.take c.1
  let plan := if entry then entryPlan t p o else finalPlan ord t p o b swapMax
  let final := plan.final p
  let sF := sumPred l (final ++ fixed)
  let fc := if plan.edgeLim then none else order.find? (fun x => !(final.contains x.slot))
  let vFc := match fc with
    | some x => x.vpred
    | none => 0
  { neg := neg, dis := dis, sat := c.2, plan := plan, final := final, fixed := fixed
    fc := fc.map (fun x => x.slot), frac := if fc.isSome then fraction v sF vFc else 0
    sF := sF, vFc := vFc }

/-- SWM_VERR (R68). -/
def verrOf (vref : Int) (c : Chosen) : Int :=
  let m := c.sF * 65536 + c.frac * c.vFc
  tdiv (vref * 65536 - (if c.neg then -m else m)) 65536

/-- The state that selection leaves an available, addressed slot in (R70): a cell of the other polarity
that the edge budget does not reach keeps its own; one that only SWAP_MAX keeps out of F is Bypassed. -/
def Chosen.endOf (c : Chosen) (x : SlotIn) : Nat :=
  if c.final.contains x.slot then insCode c.neg
  else if c.fc = some x.slot then codeBypassed
  else if x.prev = insCode (!c.neg) && !(c.plan.leave.contains x.slot) && (c.plan.edgeLim || c.plan.full) then
    x.prev
  else codeBypassed

/-- The changes of group 4 in Deblocked (R98, R70, R114): slots that are unavailable, and available ones
that go to Bypassed outside groups 1 to 3. -/
def Chosen.group4 (c : Chosen) (l : List SlotIn) (l13 : List (Nat × Nat)) : List (Nat × Nat) :=
  (changesTo l (fun x => if x.avail then c.endOf x else unavCode x.unav)).filter (fun e =>
    c.fc != some e.1 && !(l13.any (fun y => y.1 == e.1)))

/-- The results of a sweep of Deblocked from what was chosen. -/
def State.deblockWork (s : State) (n : Nat) (l : List SlotIn) (i vref : Int) (c : Chosen) (entry : Bool) :
    ArmWork :=
  let ins := insCode c.neg
  let prev := match c.fc with
    | some k => ((l.find? (fun x => x.slot == k)).getD { slot := k }).prev
    | none => 0
  let d := if c.fc.isSome then fracTime c.frac s.period (s.sep n) else 0
  let l13 := c.plan.changes ins c.fc
  let g4 := c.group4 l l13
  let q := if entry then placeAtOnce c.fc prev ins d (l13 ++ g4)
    else placeEdges s.period (s.sep n) c.fc prev ins d l13 (lastGroup (s.arm n).deferred g4)
  let w := s.workPlaced n (s.workBase n l vref i) l q c.fc ins
  { w with
    sat := c.sat, edgeLim := c.plan.edgeLim, dirDis := c.dis, polNeg := c.neg
    nIns := (c.final ++ c.fixed).length, frac := c.frac, fslot := c.fc, verr := verrOf vref c }

/-- The direction for a policy: forced by the pre hook, or by R64. -/
def State.dirOf (s : State) (n : Nat) (i : Int) (q : Policy) : Bool :=
  if q.dir = 0 then
    direction i (decide (q.vref < 0)) (1000 * (s.swm n F.SWM_DIR_I_DEAD : Int)) (s.arm n).dirDis (s.arm n).polNeg
  else q.dir == 2

/-- Whether the code of a hook that runs fails its check bits (R83): the first word of the copy is the pre
hook's where that has one. -/
def State.hookBad (s : State) (n : Nat) : Bool :=
  let h := (s.arm n).hook
  h.bad && s.swm n (if h.pre.isEmpty then F.SWM_CTL_KEY_HOOK_EN else F.SWM_CTL_PRE_HOOK_EN) == 1

/-- The hooks of a sweep: the policy, the keys of a key hook, whether the hooks' outputs are discarded, and
the engine after them (R80 to R83). The PRE hook's N_AVAIL in g3 is the present sweep's count (DESIGN CHOICE:
assumption 298). -/
def State.runHooks (s : State) (n : Nat) (l : List SlotIn) (vref i : Int) :
    Policy × Option (Tab Int) × Bool × VecSt :=
  let a := s.arm n
  let q0 : Policy := ⟨vref, s.swm n F.SWM_SEL_HYST, s.swm n F.SWM_SEL_SWAP_MAX, 0⟩
  let pre := s.swm n F.SWM_CTL_PRE_HOOK_EN == 1
  let keyOn := s.swm n F.SWM_CTL_KEY_HOOK_EN == 1
  let avail := (l.filter (fun x => x.avail)).length
  let w := if pre then (s.preStart vref i avail q0).hookRun a.hook.pre else s.hook n
  let q := if pre then preOut w else some q0
  match (if s.hookBad n then none else q) with
  | none => (q0, none, true, w)
  | some q =>
    if keyOn then
      let dis := s.dirOf n i q
      let run := fun j => (keyStart s.free j l (decide (q.vref < 0)) dis q.hyst).hookRun a.hook.key
      (q, some (keyOut l run), false, run ((s.nSlots n - 1) / 32))
    else (q, none, false, w)

/-- HOOK_FAULT (R83). -/
def State.hookFault (s : State) (n : Nat) : State :=
  (s.setFlag (swmFld n F.SWM_STAT_HOOK_FAULT) true).report 0x09 n

/-- A sweep of Deblocked on one arm: hooks, ranking, final set, fraction and edges. -/
def State.swarmDeblocked (s : State) (n : Nat) (l : List SlotIn) (vref i : Int) : State × ArmWork :=
  let h := s.runHooks n l vref i
  let q := h.1
  let dis := s.dirOf n i q
  let neg := decide (q.vref < 0)
  let key := match h.2.1 with
    | some t => fun (x : SlotIn) => tget (fun _ => 0) t x.slot
    | none => fun (x : SlotIn) => x.key neg dis q.hyst
  let entry := s.entrySweep
  let c := choose l q.vref dis entry key (s.budget n) q.swapMax
  let w := s.deblockWork n l i q.vref c entry
  let s := (s.setHook n h.2.2.2).draw
  (if h.2.2.1 then s.hookFault n else s, w)

/-- One arm's Swarm in the present sweep, with the settings frozen at its admission point (R18, R44,
R58). A refresh that runs gives way to it (R16, R88). -/
def State.swarmArm (s : State) (n : Nat) : State :=
  let vref := (s.outNow 0 n).toInt
  let i := (s.outNow 1 n).toInt
  let l := s.slotsIn n i
  let en := (s.effFld F.CRK_ARMS_ARM_EN).testBit n
  let r := if en && s.opState == stDeblocked then s.swarmDeblocked n l vref i
    else if en && s.opState == stPrecharge then (s, s.swarmPrecharge n l vref i)
    else if en && s.armTest n then (s, s.swarmTest n l vref i)
    else (s, s.swarmBlocked n l vref i)
  let a := r.1.arm n
  r.1.setArm n { a with work := r.2, refreshDefer := if a.refresh then a.refreshDefer + 1 else a.refreshDefer }

/-- SWARM_SELECTION: every arm's Swarm acts on what Hornet has delivered (R55, R58). -/
def swarmSelection (s : State) : State :=
  if s.crk.stage = .hornetDone then
    let s := forN 6 (fun n s => s.swarmArm n) s
    { s with crk := { s.crk with stage := .swarmDone } }
  else s

def execSwarmSelection (s : State) : Host.Outcome State Fault Refusal := .next (swarmSelection s)

/-! ### Commit (R40, R42, R62, R77, R89, R91) -/

/-- The start of the window in which the commands of the present sweep act, ps (R38). -/
def State.windowPs (s : State) : Nat :=
  s.crk.admAt + 1000 * s.period + 1000 * s.fld F.CRK_WIN_WIN_OFF

/-- The states a command leads to, newest first, from the state before it and the window's start. -/
def CellCmd.states (c : CellCmd) (prev ws : Nat) : List (Nat × Nat) :=
  (match c.et2 with
    | some e => [(codeBypassed, ws + 1000 * e)]
    | none => []) ++
  (match c.et1 with
    | some e => [(c.code, ws + 1000 * e)]
    | none => if c.code = prev then [] else [(c.code, ws)])

/-- The edges of a command. -/
def CellCmd.edges (c : CellCmd) : Nat := (if c.et1.isSome then 1 else 0) + (if c.et2.isSome then 1 else 0)

/-- The longest time before an admission point that a prediction can look back to beyond the newest
report: SWM_PRED.AGE_NS at its largest, ps. -/
def ageReach : Nat := 65535000

/-- A history without the entries that no prediction needs any more. -/
def histTrim (t0 : Nat) : List (Nat × Nat) → List (Nat × Nat)
  | [] => []
  | (c, a) :: r => if a ≤ t0 then [(c, a)] else (c, a) :: histTrim t0 r

/-- The edges that a repeated command brings a cell in state `prev` (R42). -/
def CellCmd.again (c : CellCmd) (prev : Nat) : Nat :=
  (if c.code = prev ∨ c.code = codePermanent then 0 else 1) + (if c.et2.isSome then 1 else 0)

/-- A command in force for a cell from a window's start on (R62). `new`: it is not a repeat, so that it
becomes the cell's committed command. Its edges count (R89), those of a repeat where they result (R42). -/
def CellSt.take (c : CellSt) (cmd : CellCmd) (ws : Nat) (new : Bool) : CellSt :=
  let h := cmd.states c.endState ws
  { c with
    cmd := if new then cmd else c.cmd
    edges := satAdd 0xFFFFFFFF c.edges (if new then cmd.edges else cmd.again c.endState)
    hist := histTrim (c.repAt - ageReach) (h ++ c.hist)
    endState := match h with
      | [] => c.endState
      | x :: _ => x.1 }

/-- One entry of the state image (Table 3.5), as bytes. -/
def State.imageEntry (s : State) (n slot : Nat) (w : ArmWork) : List Byte :=
  let c := s.cell (cellId n slot)
  let raw := (List.range 5).flatMap (fun i => leBytes 2 (c.raws.getD i 0))
  raw ++ leBytes 2 (tget (fun _ => 0) w.vmed slot) ++
    leBytes 4 (word32 (tget (fun _ => 0) w.vpred slot)).toNat ++
    leBytes 1 c.endState ++ leBytes 1 c.unav ++ leBytes 2 c.age ++ leBytes 4 c.edges ++
    leBytes 4 s.sweep.toNat ++ leBytes 4 0

/-- The state image's entry of a slot (Table 3.3). -/
def imageAddr (n slot : Nat) : Nat := 0x04004000 + 0x100000 * n + 32 * slot

/-- The sixteen entries of the state image that a commit writes (R89). -/
def State.imageWrite (s : State) (n : Nat) : State :=
  let m := s.nSlots n
  let a := s.arm n
  if m = 0 then s
  else
    let s := forN 16 (fun j (s : State) =>
      let s := s.scrubDefers 4
      let k := (a.image + j) % m
      s.store (imageAddr n k) (s.imageEntry n k a.work)) s
    s.setArm n { s.arm n with image := (a.image + 16) % m }

/-- The largest edge time, the ET of the last edge. -/
def lastEt (l : List Nat) : Nat := l.foldl max 0

/-- A per-arm field of the shared block. -/
def armFld (n : Nat) (x : Fld) : Fld := x.up (0x20 * n)

/-- The engine's registers of a committed sweep (R68, R77, R91, R118). REDUND_LOST is evaluated and reported
here, at the commit point (DESIGN CHOICE: assumption 298). FSLOT is 0 while FVALID is 0 (DESIGN CHOICE:
assumption 305). -/
def State.swarmRegs (s : State) (n : Nat) (w : ArmWork) : State :=
  let f := fun (x : Fld) => swmFld n x
  let s := s.setReg (R.SWM_VREF + 0x4000 * n) (BitVec.ofInt 32 w.vref)
  let s := s.setReg (R.SWM_IARM + 0x4000 * n) (BitVec.ofInt 32 w.iarm)
  let s := s.setReg (R.SWM_VERR + 0x4000 * n) (word32 w.verr)
  let s := (s.setFld (f F.SWM_COUNT_N_INS) w.nIns).setFld (f F.SWM_COUNT_N_AVAIL) w.nAvail
  let s := (s.setFld (f F.SWM_FRAC_FRAC) w.frac).setFld (f F.SWM_FRAC_FSLOT) (w.fslot.getD 0)
  let s := s.setFlag (f F.SWM_FRAC_FVALID) w.fslot.isSome
  let s := (s.setFlag (f F.SWM_STAT_DIR) w.dirDis).setFlag (f F.SWM_STAT_POL) w.polNeg
  let s := if w.sat then (s.setFlag (f F.SWM_STAT_SAT) true).bump (f F.SWM_EVT_SAT_CNT) 1 else s
  let s := if w.edgeLim then (s.setFlag (f F.SWM_STAT_EDGE_LIM) true).bump (f F.SWM_EVT_EDGE_LIM_CNT) 1 else s
  let s := (s.setFld (armFld n F.SWM_FTIME_D_NS) w.dNs).setFlag (armFld n F.SWM_FTIME_ADJ) w.adj
  let s := if w.adj then s.bump (armFld n F.SWM_ECNT_FRAC_ADJ) 1 else s
  let s := (s.setFld (armFld n F.SWM_EDGES_N_EDGES) w.edges.length).setFld (armFld n F.SWM_EDGES_LAST_ET) (lastEt w.edges)
  let s := s.setFlag (armFld n F.SWM_EDGES_DEFER) w.defer
  let lost := decide (w.nAvail < s.swm n F.SWM_CFG_N_MIN)
  let told := s.flag (f F.SWM_STAT_REDUND_LOST)
  let s := s.setFlag (f F.SWM_STAT_REDUND_LOST) lost
  if lost && !told then s.report 0x08 n else s

/-- The results of one arm's sweep committed (R40). -/
def State.swarmCommitArm (s : State) (n : Nat) : State :=
  let w := (s.arm n).work
  let ws := s.windowPs
  let s := forL w.cmds (fun (e : Nat × CellCmd) s =>
    let id := cellId n e.1
    s.setCell id ((s.cell id).take e.2 ws true)) s
  let s := forL w.tests (fun (e : Nat × Nat) s =>
    let id := cellId n e.1
    s.setCell id { s.cell id with testCode := e.2 }) s
  let a := s.arm n
  let s := if a.testRun then s.setFlag (swmFld n F.SWM_TEST_GO) false else s
  let s := match w.skipped with
    | some k => s.setFld (swmFld n F.SWM_TEST_SKIP) k
    | none => s
  let s := s.setArm n { a with
    dirDis := w.dirDis, polNeg := w.polNeg, vsum := w.vsum, energy := w.energy
    deferred := w.deferred, testCarry := w.carry, testRun := false, prevEdges := w.edges }
  (s.swarmRegs n w).imageWrite n

/-- The commands of the present sweep's repeat (R42): the last committed command of every slot the sweep
addresses; in Tripped, Blocked at 0, and Permanent bypass where the slot's record carries PERM (R47, R93). -/
def State.repeatCmd (s : State) (n slot : Nat) : CellCmd :=
  let c := s.cell (cellId n slot)
  if s.opState = stTripped then
    (if c.perm then { code := codePermanent }
     else { code := codeBlocked, et1 := if c.endState = codeBlocked then none else some 0 })
  else c.cmd

/-- The repeat's commands in force for an arm's slots (R62, R96). -/
def State.swarmRepeatArm (s : State) (n : Nat) : State :=
  forN (s.nSlots n) (fun k s =>
    if s.addressed k then
      let id := cellId n k
      s.setCell id ((s.cell id).take (s.repeatCmd n k) s.windowPs false)
    else s) s

end Sys2Proof.Machine
end

