-- ==== Sys2Proof/Machine/Grid.lean ====
section
/-!
DEFINITION. Cricket's settings between sweeps: the grid and its held values (R32 to R34, R39), run
control (R34, R227), the state command register (R46, R48) and the request of a test list (R79).
-/

namespace Sys2Proof.Machine

/-! ### The grid (R32 to R34) -/

/-- CRK_EPOCH in ps of Firefly time. -/
def State.epochPs (s : State) : Int := ((s.reg64 R.CRK_EPOCH_LO).toNat : Int) * 1000

/-- The first grid point at or after an instant, ps since power-good: its number and its instant. -/
def State.gridAt (s : State) (t : Nat) : Int × Nat :=
  let p : Int := (s.period : Int) * 1000
  let x : Int := (t : Int) + s.ffy.offset * 1000 - s.epochPs
  let n := -(-x / p)
  (n, (s.epochPs + n * p - s.ffy.offset * 1000).toNat)

/-- A sweep number from a grid point's (R34). -/
def sweepOf (n : Int) : Nat := (n % 2 ^ 32).toNat

/-- CRK_CTL.ALT follows the period (R32). -/
def State.altUpdate (s : State) : State := s.setFlag F.CRK_CTL_ALT s.alt

/-- The values that R33 has held come into effect, with the check of R39 where WIN_OFF or PERIOD_NS is
among them. -/
def State.gridApply (s : State) : State :=
  let c := s.crk
  let s := match c.heldPeriod with
    | some v => (s.setReg R.CRK_PERIOD v).altUpdate
    | none => s
  let s := match c.heldEpoch with
    | some v => s.setReg64 R.CRK_EPOCH_LO v
    | none => s
  let s := match c.heldWin with
    | some v => s.setReg R.CRK_WIN v
    | none => s
  let s := { s with crk := { s.crk with
    heldPeriod := none, heldEpoch := none, heldWin := none, gridDue := false } }
  if c.heldPeriod.isSome || c.heldWin.isSome then s.winCheck else s

/-- Whether no sweep is running: RUN is 0 and no admitted sweep awaits its commit point. -/
def State.sweepless (s : State) : Bool := !s.running && s.crk.commitDue.isNone

/-- What becomes of a held value: at once while no sweep runs, at the end of the current sweep in
Blocked and Servicing, else on the next entry to Blocked (R33). -/
def State.gridHeld (s : State) : State :=
  if s.quiet then
    (if s.sweepless then s.gridApply else { s with crk := { s.crk with gridDue := true } })
  else s

/-- The next admission point's sweep number and instant, of the new grid where one is due (R33). -/
def State.comingSweep (s : State) (a : Nat) : Nat × Nat :=
  if s.crk.gridDue then (sweepOf (s.gridApply.gridAt a).1, (s.gridApply.gridAt a).2) else (s.crk.nextNum, a)

/-- The number of the next admission point. -/
def State.comingNum (s : State) : Nat :=
  match s.crk.nextAdm with
  | none => s.crk.nextNum
  | some a => (s.comingSweep a).1

/-- Whether a transition is one whose first sweep is R59's block sweep: BLOCK and Cicada's BLOCK
reaction (Deblocked to Ready), and STOP (to Blocked from any state but Tripped). -/
def blockEntry (was st : Nat) : Bool :=
  (st == stReady && was == stDeblocked) || (st == stBlocked && was != stTripped)

/-- What every change of the operating state brings with it: MSI-X event, Moth trigger and capture source 5, ARM_TEST and
the test commands of Servicing (R45, R79), the first sweep of the new state (R59), and on entry to
Blocked the values that R33 has held. A block sweep that is still owed stays owed. -/
def State.stateEdge (s : State) (was st : Nat) : State :=
  let s := ((s.vector 11).mothFire 3).captureSrc 5
  let s := if was = stServicing then s.setFld F.CRK_STATE_ARM_TEST 0 else s
  let s := if st = stServicing then
      forL (s.cells.map (fun e => e.1)) (fun id s => s.setCell id { s.cell id with testCode := 0 }) s
    else s
  let s := { s with crk := { s.crk with
    dbDone := 0, blockIn := blockEntry was st || (s.crk.blockIn && s.crk.dbDone != 3) } }
  if st = stBlocked then s.gridHeld else s

/-- The _HI value that a write of _LO takes with it (R11). -/
def State.stagedHi (s : State) (lo : Nat) : Word :=
  (tget (fun _ => none) s.hiStage (lo + 4)).getD (s.reg (lo + 4))

/-- A write of CRK_PERIOD, CRK_EPOCH_LO or CRK_WIN (R32, R33). -/
def gridWrite (reg : GridReg) (v : Word) (s : State) : State :=
  match reg with
  | .period =>
    let p := bitsOf v 0 15 / 2 * 2
    if p < 1000 ∨ 20000 < p then s.rejWrite R.CRK_PERIOD
    else { s with crk := { s.crk with heldPeriod := some (BitVec.ofNat 32 p) } }.gridHeld
  | .epoch =>
    let e : BitVec 64 := s.stagedHi R.CRK_EPOCH_LO ++ v
    { s with crk := { s.crk with heldEpoch := some e } }.gridHeld
  | .win =>
    { s with crk := { s.crk with heldWin := some (BitVec.ofNat 32 (bitsOf v 0 15)) } }.gridHeld

def execSweepGridWrite (src : Src) (reg : GridReg) (data : Word) (s : State) :
    Host.Outcome State Fault Refusal :=
  match src with
  | _ => .next (gridWrite reg data s)

/-! ### Run control (R34) -/

/-- The ELX epoch advances on every port (R227). -/
def State.epochStep (s : State) : State :=
  forN 6 (fun p s =>
    s.setFld (portFld p F.DFY_FSTAT_EPOCH) ((s.fld (portFld p F.DFY_FSTAT_EPOCH) + 1) % 256)) s

/-- No lane has been sent a frame yet of those that begin now (R434). -/
def State.unframed (s : State) : State :=
  forL armLanes (fun x s =>
    if (s.lane x.1 x.2).framed then s.setLane x.1 x.2 { s.lane x.1 x.2 with framed := false } else s) s

/-- The lead of the first sweep over the write of RUN (R34), ps. -/
def runLead : Nat := 4 * psUs

/-- CRK_CTL.RUN written 1 (R34, R52, R227). -/
def sweepsRun (s : State) : State :=
  if s.running then s
  else
    let s := ((s.setFlag F.CRK_CTL_RUN true).epochStep).unframed
    let g := s.gridAt (s.now + runLead)
    { s with crk := { s.crk with
      nextAdm := some g.2, nextNum := sweepOf g.1, since := 0, commits := 0, lockFrom := none, track := [] } }

/-- CRK_CTL.RUN written 0: accepted in Blocked and Servicing; no further sweep starts, and values that
waited for the end of the current sweep take effect once none is running (R33, R34). -/
def sweepsStop (s : State) : State :=
  if !s.running then s
  else if !s.quiet then s.rejWrite R.CRK_CTL
  else
    let s := s.setFlag F.CRK_CTL_RUN false
    let s := { s with crk := { s.crk with nextAdm := none } }
    let s := if s.crk.gridDue && s.sweepless then s.gridApply else s
    if s.sweepless then s.exApply else s

def execSweepsRun (src : Src) (s : State) : Host.Outcome State Fault Refusal :=
  match src with
  | _ => .next (sweepsRun s)

/-! ### State commands (Table 2.10) -/

def cmdPrecharge : Nat := 1
def cmdReady : Nat := 2
def cmdDeblock : Nat := 3
def cmdBlock : Nat := 4
def cmdStop : Nat := 5
def cmdReset : Nat := 6
def cmdService : Nat := 7
def cmdDeblockAt : Nat := 8

/-- A command becomes the pending one. -/
def State.setPend (s : State) (code : Nat) : State :=
  { s with crk := { s.crk with pend := some code, dbSeen := false } }.setFlag F.CRK_CMD_STAT_PEND true

/-- A write of CRK_CMD (R48, Table 2.10). -/
def commandWrite (code : Nat) (s : State) : State :=
  if code = 0 ∨ 8 < code then s
  else match s.crk.pend with
    | none => s.setPend code
    | some c =>
      if c = cmdDeblockAt ∧ (code = cmdBlock ∨ code = cmdStop) then s.setPend code
      else s.setFlag F.CRK_CMD_STAT_LOST true

/-- SWM_TEST.GO: ignored unless the arm is in arm test (Table 3.10), and while one is pending (R13). -/
def testGo (n : Nat) (s : State) : State :=
  if s.armTestNow n && !(s.flag (swmFld n F.SWM_TEST_GO)) then
    (s.setArm n { s.arm n with testGo := true }).setFlag (swmFld n F.SWM_TEST_GO) true
  else s

def execTestGo (arm : Arm) (s : State) : Host.Outcome State Fault Refusal := .next (testGo arm s)

/-- A write of CRK_STATE: ARM_TEST, in Servicing only (R45). -/
def armTestWrite (v : Word) (s : State) : State :=
  if s.opState = stServicing then s.setFld F.CRK_STATE_ARM_TEST (bitsOf v 16 6) else s

end Sys2Proof.Machine
end

