-- ==== Sys2Proof/Machine/Receive.lean ====
section
/-!
DEFINITION. What an arm lane receives (R179, R206, R219): line bits go through destuffer and descrambler;
gap units are parsed and checked, and frames are found by their sync word.
-/

namespace Sys2Proof.Machine

/-! ### Gap units (R219) -/

/-- A gap unit as received: its reflex word, whether GCRC passes, UTYPE and payload, how many line bits come
after its last one, and whether it was cut off after its reflex word. -/
structure RxUnit where
  rfx : Word
  ok : Bool
  utype : Byte
  payload : BitVec 64
  after : Nat := 0
  cut : Bool := false
  deriving DecidableEq, Repr

/-- Whether bits begin with a short unit: UTYPE 0x0F, and the short GCRC passes. -/
def isShort (l : List Bool) : Bool :=
  bitsAt l 32 8 == utShort.toNat &&
    crc24 ((l.drop 32).take 8) == BitVec.ofNat 24 (bitsAt l 40 24)

/-- The unit of 128 bits that bits begin with. -/
def longUnit (l : List Bool) : RxUnit :=
  { rfx := BitVec.ofNat 32 (bitsAt l 0 32), utype := BitVec.ofNat 8 (bitsAt l 32 8)
    payload := BitVec.ofNat 64 (bitsAt l 40 64)
    ok := crc24 ((l.drop 32).take 72) == BitVec.ofNat 24 (bitsAt l 104 24) }

/-- The short unit that bits begin with. -/
def shortUnit (l : List Bool) : RxUnit :=
  { rfx := BitVec.ofNat 32 (bitsAt l 0 32), utype := utShort, payload := 0, ok := true }

/-- What is left of a unit that is cut off: its reflex word, where that has been received whole. -/
def cutUnit (l : List Bool) : List RxUnit :=
  if l.length < 32 then []
  else [{ rfx := BitVec.ofNat 32 (bitsAt l 0 32), utype := utShort, payload := 0, ok := true, cut := true }]

/-- The units of gap time from bit `pos` of what is received on, of which the first `skip` bits are not
valid: a unit that holds such bits is not looked at, and of a partial unit at the end only the reflex word
stays (R180, R207, R217, R219). At most `fuel` are taken; `after` gives the line bits after a bit's place. -/
def unitsOf (after : Nat → Nat) : Nat → Nat → Nat → List Bool → List RxUnit
  | 0, _, _, _ => []
  | fuel + 1, pos, skip, l =>
    if 0 < skip then unitsOf after fuel (pos + 128) (skip - 128) (l.drop 128)
    else if l.length < 64 then cutUnit l
    else if isShort l then
      { shortUnit l with after := after (pos + 64) } :: unitsOf after fuel (pos + 64) 0 (l.drop 64)
    else if l.length < 128 then cutUnit l
    else { longUnit l with after := after (pos + 128) } :: unitsOf after fuel (pos + 128) 0 (l.drop 128)

/-- The units of a stretch of gap time that begins at a bit. -/
def gapUnits (after : Nat → Nat) (pos skip : Nat) (l : List Bool) : List RxUnit :=
  unitsOf after (l.length / 64 + 1) pos skip l

def utEchoRep : Byte := 0x02
def utEyeRep : Byte := 0x03
def utIdRec : Byte := 0x05

/-- The round-trip time of a reply with line bits after its last one, in 1/8 ns: as measured, else by the
instants of the request's and the reply's last bits (R220). -/
def State.echoRtt (s : State) (n l lslot tag after : Nat) (rtt : Option Nat) : Nat :=
  let x := s.lane n l
  rtt.getD ((x.echoes.find? (x.echoIs lslot tag)).elim 0 (fun e => (s.now - uiPs * after - e.2.2) / 125))

/-- The payload of a unit that has passed its check, by UTYPE (Table 8.8). -/
def unitTake (n l : Nat) (rtt : Option Nat) (u : RxUnit) (s : State) : State :=
  let p := u.payload.toNat
  if u.utype = 0 || u.utype = utShort then s
  else if u.utype = utEchoRep then
    let lslot := p / 2 ^ 57
    let tag := p / 2 ^ 49 % 256
    echoRep n l lslot tag (p / 2 ^ 25 % 2 ^ 24) (s.echoRtt n l lslot tag u.after rtt) s
  else if u.utype = utEyeRep then
    eyeRep n l (BitVec.ofNat 8 (p / 2 ^ 56)) (BitVec.ofNat 8 (p / 2 ^ 48)) s
  else if u.utype = utIdRec then idRec n l (p / 2 ^ 60) (BitVec.ofNat 48 (p / 2 ^ 8)) s
  else s.bump (laneFld n l F.DFY_RFXERR_RFX_BAD) 1

/-- A gap unit received: its reflex word acts whatever its check; one that fails GCRC is counted in
SLOT_ERR and discarded, one with a UTYPE reserved upstream is counted in RFX_BAD (R217, R219). -/
def unitRx (n l : Nat) (rtt : Option Nat) (u : RxUnit) (s : State) : State :=
  let s := s.carrierRx n l u.rfx
  if u.ok then unitTake n l rtt u s else s.bump (laneFld n l F.DFY_FERR2_SLOT_ERR) 1

/-- The reflex word of a unit that was cut off acts where its RCRC passes; nothing of it is counted (R207,
R217) (DEDUCED: assumption 277). -/
def cutRx (n l : Nat) (u : RxUnit) (s : State) : State := if rfxFails u.rfx then s else s.carrierRx n l u.rfx

/-- The units that are whole. -/
def wholeUnits (us : List RxUnit) : List RxUnit := us.filter (fun u => !u.cut)

/-- Gap time received on a lane; `rtt`: of the last of its whole units. -/
def gapRx (n l : Nat) (rtt : Option Nat) (us : List RxUnit) (s : State) : State :=
  let whole := wholeUnits us
  let s := match whole.getLast? with
    | none => s
    | some u => unitRx n l rtt u (forL whole.dropLast (unitRx n l none) s)
  forL (us.filter (fun u => u.cut)) (cutRx n l) s

/-- How many of the line bits received on a lane come after a bit that they stand for. -/
def State.lineLeft (s : State) (n l : Nat) (line : List Bool) (k : Nat) : Nat :=
  lineAfter (s.lane n l).rx.run (s.lane n l).rx.runBit k line

/-- The gap units that line bits received on a lane hold. -/
def State.lineUnits (s : State) (n l : Nat) (line : List Bool) : List RxUnit :=
  gapUnits (s.lineLeft n l line) 0 (s.lineSkip n l) (s.lineBits n l line)

/-- Line bits have been taken in whole: no carrier of them whose word has acted ahead of it is to come any
more (R217). -/
def State.lineDone (s : State) (n l : Nat) : State := s.setLane n l { s.lane n l with early := [] }

/-- Line bits of gap time whose last unit has a property: they are taken in. -/
def unitLineRx (n l : Nat) (want : RxUnit → Bool) (rtt : Option Nat) (line : List Bool) (s : State) : State :=
  let us := s.lineUnits n l line
  if s.streams n l && ((wholeUnits us).getLast?).any want then (gapRx n l rtt us (s.lineTake n l line)).lineDone n l
  else s

/-- GAP_UNIT: line bits of gap time, with any units. -/
def gapUnit (n l : Nat) (line : List Bool) (s : State) : State :=
  if s.streams n l then (gapRx n l none (s.lineUnits n l line) (s.lineTake n l line)).lineDone n l else s

def execGapUnit (arm : Arm) (lane : DLane) (line : List Bool) (s : State) :
    Host.Outcome State Fault Refusal := .next (gapUnit arm lane line s)

/-- ECHO_REP: the last unit of the bits is a reply, with its measured round-trip time. -/
def execEchoRep (arm : Arm) (lane : DLane) (line : List Bool) (rtt : Nat) (s : State) :
    Host.Outcome State Fault Refusal :=
  .next (unitLineRx arm lane (fun u => u.ok && u.utype == utEchoRep) (some rtt) line s)

/-- EYE_REP: the last unit of the bits is an eye report. -/
def execEyeRep (arm : Arm) (lane : DLane) (line : List Bool) (s : State) :
    Host.Outcome State Fault Refusal :=
  .next (unitLineRx arm lane (fun u => u.ok && u.utype == utEyeRep) none line s)

/-- ID_REC: the last unit of the bits is an identity chunk. -/
def execIdRec (arm : Arm) (lane : DLane) (line : List Bool) (s : State) :
    Host.Outcome State Fault Refusal :=
  .next (unitLineRx arm lane (fun u => u.ok && u.utype == utIdRec) none line s)

/-! ### Frames (R205, R206) -/

/-- The upstream sync word (R206). -/
def upSync : BitVec 64 := 0x3B6DE40297C158AF

/-- Slots and bits of a frame (Table 8.1). -/
def frameSlots (half : Bool) : Nat := if half then 64 else 128
def frameBits (half : Bool) : Nat := 224 + 128 * frameSlots half

/-- Where the sync word of a frame stands in bits received, of which the first `skip` are not valid: in
LOCKED where it is expected, so that the frame ends with the bits; in FRAME at any position with a whole
frame from there on. The other direction's word is no match (R206). -/
def State.syncAt (s : State) (n l : Nat) (half : Bool) (skip : Nat) (b : List Bool) : Option Nat :=
  if s.laneLocked n l then
    let p := b.length - frameBits half
    if decide (frameBits half ≤ b.length) && decide (skip ≤ p) && bitsAt b p 64 == upSync.toNat then some p
    else none
  else ((syncFrom upSync 0 0 (b.drop skip)).map (fun p => skip + p)).filter (fun p =>
    decide (p + frameBits half ≤ b.length))

/-- The header, the HCRC and the slots of a frame whose sync word begins the bits (Table 8.1). -/
def frameHead (b : List Bool) : BitVec 128 := BitVec.ofNat 128 (bitsAt b 64 128)
def frameCrc (b : List Bool) : Word := BitVec.ofNat 32 (bitsAt b 192 32)
def frameBody (half : Bool) (b : List Bool) : List (BitVec 128) :=
  (List.range (frameSlots half)).map (fun i => BitVec.ofNat 128 (bitsAt b (224 + 128 * i) 128))

/-- The reflex words of a frame that begins at bit `p` and whose sync word is missing: its carriers stand
where they are expected, and the words whose bits are valid (R180). -/
def missedFrameWords (half : Bool) (p skip : Nat) (b : List Bool) : List Word :=
  ((p + 64) :: (List.range (frameSlots half)).map (fun i => p + 224 + 128 * i)).filterMap (fun q =>
    if skip ≤ q then some (BitVec.ofNat 32 (bitsAt b q 32)) else none)

/-- A frame whose sync word is missing: it is missed, and in LOCKED its reflex words act (R192, R217)
(DEDUCED: assumption 273). -/
def missedFrame (n l : Nat) (half : Bool) (skip : Nat) (b : List Bool) (s : State) : State :=
  let s := s.frameMissed n l
  if s.laneLocked n l && decide (frameBits half ≤ b.length) then
    wordsRx n l (missedFrameWords half (b.length - frameBits half) skip b) s
  else s

/-- UPSTREAM_FRAME: line bits up to the end of a frame: the gap units before it, which the sync word cuts
off, the frame, and in FRAME the gap after it. A frame whose sync word is missing is missed, and nothing of
it is taken but its reflex words (R191, R192, R206, R207, R217). -/
def upstreamFrame (n l : Nat) (half : Bool) (line : List Bool) (track : Nat) (s : State) : State :=
  if s.streams n l then
    let b := s.lineBits n l line
    let skip := s.lineSkip n l
    let at_ := s.syncAt n l half skip b
    let left := s.lineLeft n l line
    let s := (s.lineTake n l line).trackMove n l track
    let s := gapRx n l none (gapUnits left 0 skip (b.take (at_.getD (b.length - frameBits half)))) s
    match at_ with
    | none => (missedFrame n l half skip b s).lineDone n l
    | some p =>
      let f := b.drop p
      let s := frameRx n l (frameHead f) (frameCrc f) (frameBody half f) s
      (gapRx n l none (gapUnits left (p + frameBits half) 0 (f.drop (frameBits half))) s).lineDone n l
  else s

def execUpstreamFrame (arm : Arm) (lane : DLane) (half : Bool) (line : List Bool) (track : Fin 3) (s : State) :
    Host.Outcome State Fault Refusal := .next (upstreamFrame arm lane half line track s)

end Sys2Proof.Machine
end

