-- ==== Sys2Proof/Machine/Service.lean ====
section
/-!
DEFINITION. The levels of service and their unit sets (R29 to R31, Table 1.8), and the pairing of the
Hornet bank with the booted image (R396).
-/

namespace Sys2Proof.Machine

/-- Whether a bank is tested and not failed. -/
def State.bankGood (s : State) (b : Nat) : Bool :=
  !(s.flagBit F.GCR_BANK_BANK_BUSY b) && !(s.flagBit F.GCR_BANK_BANK_FAIL b)

/-- The management-only set. The boot flash is always present, so that the endpoint does not decide. -/
def State.mgmtOk (s : State) : Bool :=
  s.mod.power == .ready && !(s.flag F.GCR_UNIT_FAIL_FFY) && !(s.flagBit F.GCR_UNIT_FAIL_BTL 0) &&
    s.bankGood 0

/-- PROG_VER and PAIR_TAG of the bank in use (Table 5.9). -/
def State.progVer (s : State) : Nat := bitsOf (s.reg (bankOff (bankAct s) + 4)) 0 16
def State.pairTag (s : State) : Word := s.reg (bankOff (bankAct s) + 8)

/-- Hornet's part of a switching set: not failed, EXEC_EN (R124), paired with the image (R396). -/
def State.hornetOk (s : State) : Bool :=
  !(s.flag F.GCR_UNIT_FAIL_HRN) && s.flag F.HRN_CTL_EXEC_EN && s.flag F.MOD_COMPAT_OK

/-- The converters assigned to an arm are good; one that is not does not concern other arms (Table 1.8,
R163). -/
def State.convsOk (s : State) (n : Nat) : Bool :=
  (List.range 16).all (fun c =>
    !((s.cfld c F.MDG_CFG_ARMS).testBit n) || !(s.flagBit F.MDG_STAT_FAIL c))

/-- Lacewing's part of a switching set: not failed, and LCW_CTL.EN as in force (R173, R174). -/
def State.lcwOk (s : State) : Bool := !(s.flag F.GCR_UNIT_FAIL_LCW) && s.effFld F.LCW_CTL_EN == 1

/-- The switching set of arm n (Table 1.8). Mantis counts as healthy while GCR_UNIT_FAIL.MTS reads 0 (DESIGN
CHOICE: assumption 303). -/
def State.armSet (s : State) (n : Nat) : Bool :=
  s.mgmtOk && !(s.flag F.GCR_UNIT_FAIL_CRK) && s.lcwOk && s.hornetOk &&
    !(s.flagBit F.GCR_UNIT_FAIL_SWM n) && (s.imp n).setOk && s.convsOk n &&
    !(s.flag F.GCR_UNIT_FAIL_MTS) && !(s.flag F.GCR_UNIT_FAIL_CCD) && s.bankGood 4

/-- Every lane of a port is LOCKED. -/
def State.portUp (s : State) (p : Nat) : Bool := (allLanes p).all (s.laneLocked p)

/-- The twin standby set (Table 1.8). -/
def State.twinSet (s : State) : Bool :=
  s.mgmtOk && !(s.flag F.GCR_UNIT_FAIL_TWN) && s.portUp portT &&
    (List.range 6).all (fun n => !(s.flagBit F.CRK_ARMS_ARM_EN n) || s.portUp n) && s.bankGood 4

/-- GCR_SVC as read. -/
def State.gcrSvc (s : State) : Word :=
  BitVec.ofNat 32 ((if s.mgmtOk then 1 else 0) +
    (List.range 6).foldl (fun a n => if s.armSet n then a + 2 ^ (n + 1) else a) 0 +
    (if s.twinSet then 128 else 0))

/-! ### Boot and compatibility codes (R396, R397) -/

/-- A code of Table 16.7: kept, reported, and an MSI-X event. -/
def State.compat (s : State) (code slot : Nat) : State :=
  let s := (s.setFld F.MOD_COMPAT_CODE code).setFld F.MOD_COMPAT_SLOT slot
  (s.report 0x32 (code + 16 * slot)).vector 14

/-- Whether the bank in use matches a tag of the image, and its version is high enough (R396). -/
def State.tagOk (s : State) : Bool :=
  s.pairTag == s.reg R.MOD_TAG || (s.reg R.MOD_TAG_ALT != 0 && s.pairTag == s.reg R.MOD_TAG_ALT)
def State.verOk (s : State) : Bool := decide (s.fld F.MOD_IMG_HRN_MIN ≤ s.progVer)

/-- The pairing check of an admission point (R396). -/
def pairCheck (s : State) : State :=
  let was := s.flag F.MOD_COMPAT_OK
  let ok := s.flag F.MOD_STAT_BOOTED && s.tagOk && s.verOk
  let s := s.setFlag F.MOD_COMPAT_OK ok
  if was && !ok then s.compat (if s.tagOk then 9 else 8) 0 else s

end Sys2Proof.Machine
end

