-- ==== Sys2Proof/Machine/Twin.lean ====
section
/-!
DEFINITION. Twin operation (R332 to R348): roles and the role line, the beats and records sent and
received, the mirror, fail-over and planned handover.
-/

namespace Sys2Proof.Machine

def State.twinOn (s : State) : Bool := s.flag F.TWN_CTL_EN
def State.actIn (s : State) : Bool := s.flag F.TWN_STAT_ACT_IN

/-! ### Roles and the role line (R332, R333) -/

/-- Three sweep periods without a commit release the role line (R333). -/
def State.commitsRun (s : State) : Bool :=
  match s.twn.lastCommit with
  | none => false
  | some t => decide (s.now < t + 3 * s.period * psNs)

/-- ACT_OUT_N follows the role: low in ACTIVE and ARMING while sweeps commit (R333). -/
def driveRole (s : State) : State :=
  let on := (s.role == roleActive || s.role == roleArming) && s.commitsRun
  { s with twn := { s.twn with actOut := on } }

/-- A module that leaves ACTIVE sends only gap units on its arm ports from that instant on, and no reflex
answers (R335, Table 14.1). -/
def State.laneQuiet (s : State) (p l : Nat) : State :=
  let s := s.frameDrop p l
  s.setLane p l { s.lane p l with answers := [], framed := false }
def State.armsQuiet (s : State) : State :=
  forL armLanes (fun x s => s.laneQuiet x.1 x.2) s

/-- The role changes: TWN_STAT.CAUSE, MSI-X event 13 and capture source 6 (Tables 14.8, 17.4, 9.2); a handover
and the fault-free time of R347 end, and with them what HANDOVER and RELEASE had pending and a conflict that
waited. A module that takes the active role watches for a conflict afresh (R335) (DEDUCED: assumption 260). -/
def State.setRole (s : State) (r cause : Nat) : State :=
  let s := if s.active && r != roleActive then s.armsQuiet else s
  let told := s.twn.conflictTold && s.active
  let s := if s.role = r then s else (s.vector 13).captureSrc 6
  let s := (s.setFld F.TWN_STAT_ROLE r).setFld F.TWN_STAT_CAUSE cause
  let s := (s.setFlag F.TWN_CTL_HANDOVER false).setFlag F.TWN_CTL_RELEASE false
  driveRole { s with twn := { s.twn with
    conflict := false, conflictTold := told, roleAt := s.now, ho := .none, hoAck := false, misses := 0, freeFrom := none } }

/-- The active role taken: EPOCH advances, unless the module holds it already (R227). -/
def State.takeActive (s : State) (cause : Nat) : State :=
  (if s.active then s else s.epochStep).setRole roleActive cause

/-- Causes of the last role change (Table 14.8). -/
def causeStart : Nat := 1
def causeTakeover : Nat := 2
def causeHandover : Nat := 3
def causeRelease : Nat := 4
def causeLine : Nat := 5
def causeLoss : Nat := 6
def causeConflict : Nat := 7

/-! ### The configuration signature (R341) -/

/-- The values TWN_SIG covers, in their order. -/
def State.sigWords (s : State) : List Word :=
  [s.reg R.CRK_PERIOD, s.reg R.CRK_EPOCH_HI, s.reg R.CRK_EPOCH_LO, s.reg R.CRK_ARMS, s.reg R.CRK_BAND,
    s.reg R.CRK_FLY, s.reg R.CRK_VBASE, s.reg R.CRK_WIN] ++
  (List.range 6).flatMap (fun n => [s.reg (R.SWM_CFG + 0x4000 * n), s.reg (R.SWM_SEL + 0x4000 * n),
    s.reg (R.SWM_EDGE + 0x4000 * n), s.reg (R.SWM_PRE + 0x4000 * n)]) ++
  [s.reg R.SWM_HOLD, BitVec.ofNat 32 s.progVer, s.pairTag,
    BitVec.ofNat 32 (s.fld F.TWN_CFG_ST_N), BitVec.ofNat 32 (s.fld F.TWN_CFG_PREF_UNIT),
    s.mts.nvConf.getD 0]

def State.twnSig (s : State) : Word := hcrc (s.sigWords.flatMap (fun w => bitsMsb 32 w.toNat))

/-- Whether both modules report one UNIT (R334). -/
def State.sameUnit (s : State) : Bool := Config.partnerUnit == s.flag F.TWN_CFG_UNIT

/-- SIG_MISMATCH follows the signatures and the units. -/
def sigUpdate (s : State) : State :=
  s.setFlag F.TWN_STAT_SIG_MISMATCH
    (s.twn.seen && (s.reg R.TWN_SIG != s.reg R.TWN_PSIG || s.sameUnit))

/-! ### Capacity (R338) -/

/-- 16-byte units a record frame can hold (R338). -/
def State.unitCap (s : State) : Nat := 4 * ((12 * (min s.period 2000 - 100) - 256) / 128)
/-- F: the units of a record without ST vectors and bulk. -/
def State.recFixed (s : State) : Nat := if s.alt then 232 else 328
def State.stMax (s : State) : Nat := min 32 ((s.unitCap - s.recFixed) / 8)

/-- The capacity check of an admission point at which the period or ST_N takes effect. -/
def fitCheck (s : State) : State :=
  let now := (s.period, s.fld F.TWN_CFG_ST_N)
  if s.twn.fitFor = some now then s
  else
    let bad := decide (s.stMax < now.2)
    let s := { s with twn := { s.twn with fitFor := some now } }.setFlag F.TWN_STAT_FIT_ERR bad
    if bad then s.report 0x23 0 else s

/-! ### Readiness (R342) -/

def State.tofsMax (s : State) : Nat := max 1 (s.fld F.TWN_CFG_TOFS_MAX)

/-- READY_SB. -/
def State.readySb (s : State) : Bool :=
  s.role == roleStandby && s.portUp portT && s.twinSet &&
    (List.range 6).all (fun n => !(s.flagBit F.CRK_ARMS_ARM_EN n) || s.armSet n) &&
    !(s.flag F.TWN_STAT_SIG_MISMATCH) && !(s.flag F.TWN_STAT_FIT_ERR) &&
    decide ((s.reg R.TWN_TOFS).toInt.natAbs ≤ s.tofsMax) &&
    s.twn.recHist.length == 16 && s.twn.recHist.all (fun b => b) && !s.anyTrip

/-- TWN_STAT as read. -/
def State.twnStat (s : State) : Word :=
  let v := putBits (s.reg R.TWN_STAT) F.TWN_STAT_LINK_UP.lo 1 (if s.portUp portT then 1 else 0)
  putBits v F.TWN_STAT_READY_SB.lo 1 (if s.readySb then 1 else 0)

/-- TWN_RET as read: the fault-free seconds, 0 while the conditions do not hold (R347). -/
def State.twnRet (s : State) : Word :=
  match s.twn.freeFrom with
  | none => 0
  | some t => BitVec.ofNat 32 (min 600 ((s.now - t) / (1000 * psMs)))

/-- The fault-free time of the preferred-unit return starts, runs on or breaks (R347). -/
def freeTime (ok : Bool) (s : State) : State :=
  let pref := s.role == roleStandby && s.flag F.TWN_CTL_AUTO_RET &&
    s.flag F.TWN_CFG_UNIT == s.flag F.TWN_CFG_PREF_UNIT
  { s with twn := { s.twn with
    freeFrom := if pref && ok && s.readySb then some (s.twn.freeFrom.getD s.now) else none } }

/-! ### The mirror record (R337) -/

def word4 (w : Word) : List Byte := leBytes 4 w.toNat

/-- The cells of a record, in rising ID: all, or the addressed half. -/
def State.mirrorCells (s : State) (sweep : Nat) : List Nat :=
  (List.range 6144).filter (fun c => !s.alt || slotHalf (c % 1024) == sweep % 2)

/-- Two cell states to a byte, the lower ID in the low nibble. -/
def nibbles : List Nat → List Byte
  | a :: b :: r => BitVec.ofNat 8 (a % 16 + 16 * (b % 16)) :: nibbles r
  | [a] => [BitVec.ofNat 8 (a % 16)]
  | [] => []

/-- SWM_CF records that differ from those of the last record, at most 16. -/
def State.cfChanges (s : State) : List (Nat × Word) :=
  (((List.range 6144).map (fun c => (c, s.reg (R.SWM_CF + 4 * c)))).filter (fun x =>
    x.2 != tget (fun _ => 0) s.twn.cfSent x.1)).take 16

/-- The control part, 256 bytes (Table 14.3). -/
def State.recControl (s : State) (late : Bool) (bulk : Nat) : List Byte :=
  let flags := (if late then 1 else 0) + (if s.anyTrip then 0 else 2)
  let dbat := if s.crk.pend = some cmdDeblockAt then s.reg64 R.CRK_DBAT_LO else 0
  let head := word4 s.sweep ++ [BitVec.ofNat 8 (s.fld F.DFY_FSTAT_EPOCH)] ++
    [(s.reg R.CRK_STATE).setWidth 8] ++ leBytes 2 flags ++ leBytes 8 dbat.toNat ++
    leBytes 2 (BitVec.ofInt 16 s.twn.arrival).toNat ++ leBytes 2 0 ++ leBytes 4 bulk
  let arm := fun n =>
    leBytes 2 ((if (s.arm n).dirDis then 1 else 0) + (if (s.arm n).polNeg then 2 else 0)) ++
    leBytes 2 (if s.flag (swmFld n F.SWM_FRAC_FVALID) then s.fld (swmFld n F.SWM_FRAC_FSLOT) else 0xFFFF) ++
    leBytes 2 (s.fld (swmFld n F.SWM_FRAC_FRAC)) ++
    leBytes 2 0
  let ch := s.cfChanges.map (fun x => leBytes 2 x.1 ++ word4 x.2 ++ leBytes 2 0)
  let none_ := leBytes 2 0xFFFF ++ leBytes 6 0
  head ++ (List.range 6).flatMap arm ++ List.replicate 56 0 ++ ch.flatten ++
    (List.replicate (16 - ch.length) none_).flatten

/-- One lane's gain schedule: region, remaining ramp steps, KP, KI and KAW in force. -/
def gainBytes (g : GainSt) : List Byte :=
  leBytes 2 g.region ++ leBytes 2 (g.ramp - g.step) ++
    (List.range 3).flatMap (fun k => word4 (BitVec.ofInt 32 (g.cur.getD k 0)))

/-- The twin mirror region (Table 1.6). -/
def mirrorBase : Nat := 0x04800000

/-- The bulk range as set, in 16-byte units, and how many of them the record takes. -/
def State.bulkLen (s : State) : Nat := s.fld F.TWN_BULK_LEN_LEN
def State.bulkUnits (s : State) : Nat :=
  min s.bulkLen (s.unitCap - s.recFixed - 8 * s.fld F.TWN_CFG_ST_N)
def State.bulkUnit (s : State) (k : Nat) : Nat :=
  16 * (s.fld F.TWN_BULK_OFS_OFS + (s.twn.bulk + k) % max 1 s.bulkLen)

/-- One ECC word of the bulk range as the engine reads it (R25): a poisoned one is recorded and reported, and
free bytes stand for it in the record (DESIGN CHOICE: assumption 118). -/
def bulkWord (a : Nat) (s : State) : List Byte × State :=
  let s := s.checkRead a 8
  if s.poisoned a 8 then ((List.range 8).map (Config.freeByte s.free), s.draw) else (s.rdBytes a 8, s)

/-- The bulk bytes of the record that is sent now (R337). -/
def bulkRead (s : State) : List Byte × State :=
  forN (2 * s.bulkUnits) (fun k (r : List Byte × State) =>
    let x := bulkWord (mirrorBase + s.bulkUnit (k / 2) + 8 * (k % 2)) r.2
    (r.1 ++ x.1, x.2)) ([], s)

/-- The record of the sweep that commits, with its bulk bytes. -/
def State.mirrorRecord (s : State) (late : Bool) (bulk : List Byte) : List Byte :=
  let words := fun a n => (List.range n).flatMap (fun k => word4 (s.reg (a + 4 * k)))
  s.recControl late (s.bulkUnit 0) ++
    nibbles ((s.mirrorCells s.sweep.toNat).map (fun c => (s.cell c).endState)) ++
    words R.HRN_OUT 256 ++ (List.range 96).flatMap (fun k => word4 (tget (fun _ => 0) s.hrn.inp (160 + k))) ++
    (List.range 32).flatMap (fun m => gainBytes (tget (fun _ => {}) s.hrn.gains m)) ++
    words R.HRN_ST (32 * s.fld F.TWN_CFG_ST_N) ++ bulk

/-- What a record carries, by byte offset. -/
def rec16 (r : List Byte) (a : Nat) : Nat := leNat ((r.drop a).take 2)
def rec32 (r : List Byte) (a : Nat) : Word := BitVec.ofNat 32 (leNat ((r.drop a).take 4))

/-- A field of the record after the cell states, which alternate-half operation moves up. -/
def State.recOfs (s : State) (a : Nat) : Nat := if s.alt then a - 1536 else a

/-! ### The mirror taken (R339) -/

/-- CRK_STATE[7:0] from the record (R50). -/
def mirrorState (b : Nat) (s : State) : State :=
  let was := s.opState
  let s := s.setReg R.CRK_STATE (putBits (s.reg R.CRK_STATE) 0 8 b)
  if s.opState = was then s else s.stateEdge was s.opState

/-- Direction, polarity and fractional cell of the arms, and the registers that show them. -/
def mirrorArms (r : List Byte) (s : State) : State :=
  forN 6 (fun n s =>
    let a := 24 + 8 * n
    let b := rec16 r a
    let s := s.setArm n { s.arm n with dirDis := b % 2 == 1, polNeg := b / 2 % 2 == 1 }
    let f := rec16 r (a + 2)
    let s := (s.setFlag (swmFld n F.SWM_STAT_DIR) (b % 2 == 1)).setFlag (swmFld n F.SWM_STAT_POL) (b / 2 % 2 == 1)
    let s := s.setFlag (swmFld n F.SWM_FRAC_FVALID) (f != 0xFFFF)
    (s.setFld (swmFld n F.SWM_FRAC_FSLOT) (if f = 0xFFFF then 0 else f)).setFld (swmFld n F.SWM_FRAC_FRAC)
      (rec16 r (a + 4))) s

/-- Cell states: a state that differs counts from the present instant on. -/
def mirrorCellStates (r : List Byte) (s : State) : State :=
  let ids := s.mirrorCells (rec32 r 0).toNat
  forN ids.length (fun k s =>
    let b := byteAt r (0x100 + k / 2)
    let v := if k % 2 = 0 then b % 16 else b / 16
    let id := ids.getD k 0
    let c := s.cell id
    if c.endState = v then s
    else s.setCell id { c with endState := v, hist := (v, s.now) :: c.hist, cmd := { code := v } }) s

/-- SWM_CF records. -/
def mirrorFaults (r : List Byte) (s : State) : State :=
  forN 16 (fun e s =>
    let id := rec16 r (128 + 8 * e)
    if id < 6144 then s.setReg (R.SWM_CF + 4 * id) (rec32 r (130 + 8 * e)) else s) s

/-- OUT, IN5 to IN7, gain schedules and ST vectors, with what shows them: HRN_SUP and HRN_REGION0 to
HRN_REGION3 (R128, R138). A word of ST that is written is no longer poisoned (R152). -/
def mirrorHornet (r : List Byte) (s : State) : State :=
  let o := s.recOfs 0xD00
  let s := forN 256 (fun k s => s.setReg (R.HRN_OUT + 4 * k) (rec32 r (o + 4 * k))) s
  let inp := forN 96 (fun k t => tset (fun _ => 0) (160 + k) (rec32 r (o + 0x400 + 4 * k)) t) s.hrn.inp
  let mg := forN 96 (fun k t => tset (fun _ => 0) k (rec32 r (o + 0x400 + 4 * k)) t) s.hrn.mgmt
  let gains := forN 32 (fun m t =>
    let a := o + 0x580 + 16 * m
    let cur := (List.range 3).map (fun k => (rec32 r (a + 4 + 4 * k)).toInt)
    let g := tget (fun _ => {}) s.hrn.gains m
    let left := rec16 r (a + 2)
    let g1 := if left = 0 then cur else gainRegion (hornetCtx s) m (rec16 r a)
    tset (fun _ => {}) m { g with
      region := rec16 r a, mark := false, step := 0, ramp := left, g0 := cur, g1 := g1, cur := cur } t)
    s.hrn.gains
  let s := ({ s with hrn := { s.hrn with inp := inp, mgmt := mg, gains := gains } }.setRegions).setSup
  forN (32 * s.fld F.TWN_CFG_ST_N) (fun k s =>
    hrnWord (R.HRN_ST + 4 * k) (rec32 r (o + 0x780 + 4 * k)) s) s

/-- The state of the newest complete record (R339). -/
def mirrorTake (s : State) : State :=
  let r := s.twn.record
  if r.isEmpty then s
  else
    let s := forN 6 (fun p s => s.setFld (portFld p F.DFY_FSTAT_EPOCH) (byteAt r 4)) s
    mirrorHornet r (mirrorFaults r (mirrorCellStates r (mirrorArms r (mirrorState (byteAt r 5) s))))

/-! ### Beats sent (R336, R337, R343) -/

/-- The HO code of a beat (Table 14.2, R348): GO goes with the beat of the commit point H-1, and a STANDBY
answers ACK only while READY_SB is 1. -/
def State.hoCode (s : State) : Nat :=
  match s.twn.ho with
  | .none => 0
  | .req => 1
  | .ann => if s.active then 2 else if s.readySb then 3 else 5
  | .go => if s.active then (if s.twn.beatNo = 0 then 4 else 2) else if s.readySb then 3 else 5

/-- The header of a beat (Table 14.2). -/
def State.beatHdr (s : State) (rec_ : Bool) : BitVec 128 :=
  packFields [(s.twn.beatSweep.toNat, 96), (s.fld F.DFY_FSTAT_EPOCH, 88), (s.role, 86), (s.opState, 83),
    ((if s.readySb then 1 else 0), 82), ((if rec_ then 1 else 0), 81), (s.hoCode, 78),
    ((s.reg R.TWN_HO).toNat, 40), ((s.reg R.TWN_SIG).toNat, 8), (s.twn.beatNo % 16, 4), (1, 0)]

/-- Whether the partner's beat of the previous beat instant is held, by SWEEP and BEAT of its header; at the
first beat instant any beat counts (R343). -/
def State.beatHeld (s : State) : Bool :=
  match s.twn.lastBeat with
  | none => !s.twn.beats.isEmpty
  | some k => s.twn.beats.contains k

/-- The check for the partner's beat of the previous beat instant: on a STANDBY an instant without one is a
miss. -/
def beatCheck (s : State) : State :=
  let hit := s.beatHeld
  let s := s.setFlag F.TWN_STAT_P_OK hit
  if s.role = roleStandby then
    (if hit then { s with twn := { s.twn with misses := 0 } }
     else { s with twn := { s.twn with misses := s.twn.misses + 1 } }.bump F.TWN_CNT_MISS 1)
  else s

/-- The sync word of a beat frame (R336). -/
def twinSync : BitVec 64 := 0x6C1E93A5D2B8470F

/-- The units of a record on a lane: unit u travels on lane u mod 4, as that lane's unit floor(u / 4)
(R337). -/
def laneUnits (r : List Byte) (l : Nat) : List (List Byte) :=
  ((List.range (r.length / 16)).filter (fun u => u % 4 == l)).map (fun u => (r.drop (16 * u)).take 16)

/-- The bits of a beat frame on a lane (R336): sync word, header, HCRC and, with a record, its units and
FCRC. -/
def beatBits (hdr : BitVec 128) (units : Option (List (List Byte))) : List Bool :=
  let h := bitsMsb 128 hdr.toNat
  bitsMsb 64 twinSync.toNat ++ h ++ bitsMsb 32 (hcrc h).toNat ++
    match units with
    | none => []
    | some us =>
      let b := us.flatten.flatMap (fun x => bitsMsb 8 x.toNat)
      b ++ bitsMsb 32 (hcrc b).toNat

/-- Bits with one of them inverted. -/
def flipBit (b : List Bool) (i : Nat) : List Bool := b.set i (!(b.getD i false))

/-- Which beat frame a lane sends, as the impairment acting on it leaves it (Table 7.4): none, one bit of its
record unit SLOT or of HCRC inverted, or in REORDER another commit point's. -/
def State.beatImpaired (s : State) (l : Nat) (b : List Bool) : List Bool :=
  let mode := s.impMode portT l
  let u := 224 + 128 * s.impSlot portT
  let k := (s.imp portT).done
  if mode = impDrop then []
  else if mode = impCorruptSlot then
    (if u + 160 ≤ b.length then flipBit b (u + Config.freeBit s.free % 128) else b)
  else if mode = impCorruptHdr then flipBit b (192 + Config.freeBit s.free % 32)
  else if mode = impReorder then
    (if k = 1 then [] else if k = 3 && s.twn.beatNo == 0 then (s.lane portT l).heldBeat else b)
  else b

/-- A beat frame sent on a lane of port T that sends the scrambled stream: gap time up to now carries
scrambled 0 bits, and the frame follows through scrambler and stuffer (R179, R336). A lane in FRAME counts
the sweeps that release frames (R434). -/
def State.beatLane (s : State) (l : Nat) (b : List Bool) : State :=
  if s.streams portT l && !(s.flag F.FFY_STAT_GATED) then
    let x := s.lane portT l
    let out := s.beatImpaired l b
    let withheld := s.impMode portT l == impReorder && (s.imp portT).done == 1 && s.twn.beatNo == 0
    let t := (x.tx.zeros false ((s.now - x.txAt) / uiPs)).1.carry (s.impMode portT l == impDead) 0 out
    let x := { x with
      tx := t, txAt := s.now + uiPs * t.line.length
      heldBeat := if withheld then b else x.heldBeat
      frameSweeps := if s.phase portT l = phFrame && s.twn.beatNo == 0 then x.frameSweeps + 1
        else x.frameSweeps }
    let m := s.impMode portT l
    (if m = impCorruptSlot ∨ m = impCorruptHdr then s.draw else s).setLane portT l x
  else s

/-- A beat frame on every data lane of port T; all four carry the same header. -/
def State.beatSend (s : State) (hdr : BitVec 128) (record : Option (List Byte)) : State :=
  forL (dataLanes portT) (fun l s => s.beatLane l (beatBits hdr (record.map (fun r => laneUnits r l)))) s

/-- One beat instant: the check, and the beat frame with the record of an ACTIVE module at a commit
point. -/
def beatAt (rec_ : Bool) (late : Bool) (s : State) : State :=
  let s := beatCheck s
  let sends := rec_ && s.active && !(s.flag F.TWN_STAT_FIT_ERR)
  let hdr := s.beatHdr sends
  let s := if sends then
      let (bulk, s) := bulkRead s
      let cf := forL s.cfChanges (fun (x : Nat × Word) t => tset (fun _ => 0) x.1 x.2 t) s.twn.cfSent
      { s with twn := { s.twn with
        sentRec := s.mirrorRecord late bulk, cfSent := cf
        bulk := (s.twn.bulk + s.bulkUnits) % max 1 s.bulkLen } }
    else s
  let s := s.beatSend hdr (if sends then some s.twn.sentRec else none)
  let s := if s.twn.ho = .req then s.setFlag F.TWN_CTL_HANDOVER false else s
  { s with twn := { s.twn with
    sent := some hdr, lastBeat := some (s.twn.beatSweep, s.twn.beatNo % 16), ho := if s.twn.ho = .req then .none else s.twn.ho } }

/-- The next beat instant within the sweep (R336). -/
def nextBeat (at_ : Nat) (s : State) : State :=
  let more := decide (2000 < s.period) && decide ((s.twn.beatNo + 1) * 2000 < s.period)
  { s with twn := { s.twn with
    nextBeat := if more then some (at_ + 2000 * psNs) else none, beatNo := s.twn.beatNo + 1 } }

/-- The commit point's beat. -/
def twinCommit (late : Bool) (s : State) : State :=
  let s := driveRole { s with twn := { s.twn with lastCommit := some s.now, beatNo := 0, beatSweep := s.sweep } }
  if s.twinOn then nextBeat s.now (beatAt true late s) else s

/-- A beat instant between commit points. -/
def beatInstant (s : State) : State :=
  match s.twn.nextBeat with
  | none => s
  | some t => if s.twinOn then nextBeat t (beatAt false false (s.reach t)) else s

def execBeatInstant (s : State) : Host.Outcome State Fault Refusal := .next (beatInstant s)

/-! ### Loss (R343) -/

/-- The newest complete record is at most 8 sweeps older than the present sweep. -/
def State.recFresh (s : State) : Bool :=
  !s.twn.record.isEmpty && decide (sdiff s.sweep (s.reg R.TWN_REC) ≤ 8)

/-- Whether a loss leads to ARMING. -/
def State.mayArm (s : State) : Bool := s.twn.readyAtBeat && !s.actIn && s.recFresh

/-- The third miss in succession (R343). -/
def twinLoss (s : State) : State :=
  if s.role = roleStandby ∧ 3 ≤ s.twn.misses then
    let s := s.setFlag F.TWN_STAT_LOSS true
    if s.mayArm then (s.setRole roleArming causeTakeover).report 0x24 causeTakeover
    else (s.setRole roleNone causeLoss).report 0x24 causeLoss
  else s

def execTwinLoss (s : State) : Host.Outcome State Fault Refusal := .next (twinLoss s)

/-! ### Beats received (R334, R336, R342, R343, R348) -/

def hdrSweep (h : BitVec 128) : Word := h.extractLsb' 96 32
def hdrBeat (h : BitVec 128) : Nat := fieldOf h 4 4
def hdrRole (h : BitVec 128) : Nat := fieldOf h 86 2
def hdrReady (h : BitVec 128) : Bool := h.getLsbD 82
def hdrHo (h : BitVec 128) : Nat := fieldOf h 78 3
def hdrH (h : BitVec 128) : Word := h.extractLsb' 40 32
def hdrSig (h : BitVec 128) : Word := h.extractLsb' 8 32

/-- The arbitration of a module in NONE (R334). -/
def arbitrate (s : State) : State :=
  if !(s.portUp portT) then s
  else if s.sameUnit then
    (if s.twn.unitTold then s
     else ({ s with twn := { s.twn with unitTold := true } }.setFlag F.TWN_STAT_SIG_MISMATCH true).report
       0x21 0)
  else if s.fld F.TWN_STAT_P_ROLE = roleActive then s.setRole roleStandby causeStart
  else if s.flag F.TWN_CFG_UNIT == s.flag F.TWN_CFG_PREF_UNIT then
    (if s.actIn then s else s.takeActive causeStart)
  else s.setRole roleStandby causeStart

/-- A handover asked of the ACTIVE module (R348). -/
def handoverStart (s : State) : State :=
  if s.twn.ho ≠ .none then s
  else if s.flag F.TWN_STAT_P_READY then
    { s with twn := { s.twn with ho := .ann, hoAck := false } }.setReg R.TWN_HO
      (BitVec.ofNat 32 (s.comingNum + 16))
  else s.setFlag F.TWN_STAT_HO_FAIL true

/-- The HO field of a beat. An ANN answers what the STANDBY has asked for, so that HANDOVER reads 0 (R13). -/
def handoverRx (h : BitVec 128) (s : State) : State :=
  let same := hdrH h == s.reg R.TWN_HO
  if s.active then
    (if hdrHo h = 1 then handoverStart s
     else if s.twn.ho = .none then s
     else if hdrHo h = 3 && same then { s with twn := { s.twn with hoAck := true } }
     else if hdrHo h = 5 && same then { s with twn := { s.twn with hoAck := false } }
     else s)
  else if s.role = roleStandby then
    (if hdrHo h = 2 then
      let s := s.setFlag F.TWN_CTL_HANDOVER false
      { s with twn := { s.twn with ho := if s.twn.ho == Handover.go && same then Handover.go else Handover.ann } }.setReg R.TWN_HO (hdrH h)
     else if hdrHo h = 4 && same && s.twn.ho == Handover.ann then { s with twn := { s.twn with ho := .go } }
     else s)
  else s

/-- The address in the mirror region of bulk unit k of a record whose first lies at `first`: the units follow
each other, and after the end of this module's range they go on at its start (R337) (DESIGN CHOICE: assumption
118). -/
def State.bulkAt (s : State) (first k : Nat) : Nat :=
  let base := 16 * s.fld F.TWN_BULK_OFS_OFS
  let len := 16 * s.bulkLen
  let a := first + 16 * k
  if base ≤ first ∧ first < base + len ∧ base + len ≤ a then base + (a - base) % len else a

/-- A complete record received (R336, R337, R342): it becomes the newest; on a STANDBY the time offset is
measured and its bulk units are written to the addresses that they carry. -/
def recordRx (r : List Byte) (s : State) : State :=
  let m : Int := (BitVec.ofNat 16 (rec16 r 16)).toInt
  let s := { s with twn := { s.twn with record := r, recNew := true } }.setReg R.TWN_REC (rec32 r 0)
  let s := if s.role = roleStandby then
      s.setReg R.TWN_TOFS (BitVec.ofInt 32 (tdiv (s.twn.arrival - m) 2)) else s
  let bulk := r.drop (s.recOfs 0x1480 + 128 * s.fld F.TWN_CFG_ST_N)
  let first := (rec32 r 20).toNat
  let s := forN (if s.role = roleStandby then bulk.length / 16 else 0) (fun k s =>
    (s.scrubDefers 4).store (mirrorBase + s.bulkAt first k % 0x800000) ((bulk.drop (16 * k)).take 16)) s
  freeTime (rec16 r 6 / 2 % 2 == 1) s

/-- What one lane of port T receives of a beat frame: the header, and the record units where the header says
that they follow and FCRC passes; none where no sync word stands or HCRC fails (R336). -/
def beatParse (b : List Bool) : Option (BitVec 128 × Option (List (List Byte))) :=
  match syncFrom twinSync 0 0 b with
  | none => none
  | some p =>
    let f := b.drop p
    let h := (f.drop 64).take 128
    let hdr := BitVec.ofNat 128 (msbNat h)
    let rest := f.drop 224
    let n := (rest.length - 32) / 128
    let body := rest.take (128 * n)
    if decide (f.length < 224) || hcrc h != BitVec.ofNat 32 (bitsAt f 192 32) then none
    else if hdr.getLsbD 81 && decide (32 ≤ rest.length) &&
        hcrc body == BitVec.ofNat 32 (bitsAt rest (128 * n) 32) then
      some (hdr, some ((List.range n).map (fun u => (List.range 16).map (fun i =>
        BitVec.ofNat 8 (bitsAt body (128 * u + 8 * i) 8)))))
    else some (hdr, none)

/-- A received beat frame as the impairment acting on the lane leaves it (Table 7.4). -/
def State.beatHurt (s : State) (l : Nat) (b : List Bool) : List Bool :=
  let u := (syncFrom twinSync 0 0 b).getD 0 + 224 + 128 * s.impSlot portT
  if s.impMode portT l = impRxDrop then []
  else if s.impMode portT l = impRxCorrupt && decide (u + 160 ≤ b.length) then
    flipBit b (u + Config.freeBit s.free % 128)
  else b

/-- What a lane of port T delivers from its line bits; a lane in OFF to HANDSHAKE or FAILED delivers none. -/
def State.laneBeat (s : State) (l : Nat) (line : List Bool) : Option (BitVec 128 × Option (List (List Byte))) :=
  if s.streams portT l then
    beatParse (s.beatHurt l ((s.lineBits portT l line).drop (s.lineSkip portT l)))
  else none

/-- A lane of port T takes line bits: violations are counted, the tracker moves, and the frame counts toward
LOCKED or toward a loss of lock (R182, R191, R192, Table 7.2). -/
def State.beatLineRx (s : State) (l : Nat) (line : List Bool) (move : Nat) : State :=
  if s.streams portT l && !line.isEmpty then
    let good := (s.laneBeat l line).isSome
    let drop := s.impMode portT l == impRxDrop
    let hurt := s.impMode portT l == impRxCorrupt
    let s := (s.lineTake portT l line).trackMove portT l move
    let x := s.lane portT l
    let s := if hurt then s.draw else s
    if drop then s.scanYield portT l
    else (s.setLane portT l { x with
      bad := if good then 0 else x.bad + 1
      goodFrames := if good then x.goodFrames + 1 else 0 }).scanYield portT l
  else s

/-- What the LOCKED lanes of port T deliver of a beat frame. -/
def State.lanesBeat (s : State) (lines : List (List Bool)) :
    List (Option (BitVec 128 × Option (List (List Byte)))) :=
  (dataLanes portT).map (fun l => if s.laneLocked portT l then s.laneBeat l (lines.getD l []) else none)

/-- The header of a valid beat: at least one lane's has passed HCRC (R336). -/
def beatHead (l : List (Option (BitVec 128 × Option (List (List Byte))))) : Option (BitVec 128) :=
  (l.filterMap (fun x => x.map (fun y => y.1))).head?

/-- The record of a beat, complete only when the FCRC of all four lanes has passed: unit u is unit
floor(u / 4) of lane u mod 4 (R336, R337). -/
def beatRecord (l : List (Option (BitVec 128 × Option (List (List Byte))))) : Option (List Byte) :=
  let us := l.map (fun x => x.bind (fun y => y.2))
  if us.all (fun x => x.isSome) then
    let g := us.map (fun x => x.getD [])
    some ((List.range (g.map List.length).sum).flatMap (fun u => (g.getD (u % 4) []).getD (u / 4) []))
  else none

/-- A valid beat of the partner, with its record or a failed one. -/
def beatTake (h : BitVec 128) (arrival : Int) (record : Option (List Byte)) (recErr : Bool) (s : State) :
    State :=
  if s.twinOn then
    let s := s.setFld F.TWN_STAT_P_ROLE (hdrRole h)
    let s := (s.setFlag F.TWN_STAT_P_READY (hdrReady h)).setReg R.TWN_PSIG (hdrSig h)
    let s := { s with twn := { s.twn with
      seen := true, beats := ((hdrSweep h, hdrBeat h) :: s.twn.beats).take 4, arrival := arrival, readyAtBeat := s.readySb } }
    let s := if s.role = roleNone then arbitrate s else s
    let s := sigUpdate s
    let s := if recErr then s.bump F.TWN_CNT_REC_ERR 1 else s
    let s := match record with
      | none => s
      | some r => recordRx r s
    let s := handoverRx h s
    if s.role = roleStandby && hdrRole h != roleActive && s.mayArm then
      (s.setRole roleArming causeTakeover).report 0x24 causeTakeover
    else s
  else s

/-- BEAT_RX: a beat frame on the four lanes. -/
def beatRx (lines : List (List Bool)) (arrival : Int) (tracks : List (Fin 3)) (s : State) : State :=
  let l := s.lanesBeat lines
  let t := forL (dataLanes portT) (fun k s => s.beatLineRx k (lines.getD k []) (tracks.getD k 1).val) s
  match beatHead l with
  | none => t
  | some h =>
    let r := beatRecord l
    beatTake h arrival r (h.getLsbD 81 && r.isNone) t

def execBeatRx (lines : List (List Bool)) (arrivalNs : Int) (tracks : List (Fin 3)) (s : State) :
    Host.Outcome State Fault Refusal := .next (beatRx lines arrivalNs tracks s)

/-! ### Commands and pins -/

/-- TWN_CTL.HANDOVER (R348): on a STANDBY the request is pending until a beat has carried it (R13). -/
def handover (s : State) : State :=
  if !s.twinOn then s
  else if s.active then handoverStart s
  else if s.role = roleStandby ∧ s.twn.ho = .none then
    { s with twn := { s.twn with ho := .req } }.setFlag F.TWN_CTL_HANDOVER true
  else s

def execHandover (s : State) : Host.Outcome State Fault Refusal := .next (handover s)

/-- TWN_CTL.RELEASE: it waits for the next admission point (R335). -/
def releaseWrite (s : State) : State :=
  if s.twinOn && s.active then s.setFlag F.TWN_CTL_RELEASE true else s

/-- ACT_IN_N changes level (R333). -/
def actInChange (low : Bool) (s : State) : State :=
  if s.actIn == low then s
  else { s with twn := { s.twn with actInAt := s.now, conflictTold := false } }.setFlag F.TWN_STAT_ACT_IN low

def execActInChange (low : Bool) (s : State) : Host.Outcome State Fault Refusal :=
  .next (actInChange low s)

/-- ACT_IN has been 1 for more than 1 µs on an ACTIVE module outside a handover (R335). -/
def twnConflict (s : State) : State :=
  if s.active && s.actIn && s.twn.ho == Handover.none && !s.twn.conflictTold then
    let s := s.reach (max s.twn.actInAt s.twn.roleAt + psUs)
    let leaves := s.twinOn && s.flag F.TWN_CFG_UNIT != s.flag F.TWN_CFG_PREF_UNIT
    let s := { s with twn := { s.twn with conflictTold := true, conflict := leaves } }
    (s.setFlag F.TWN_STAT_CONFLICT true).report 0x22 0
  else s

def execTwnConflict (s : State) : Host.Outcome State Fault Refusal := .next (twnConflict s)

/-- The instant at which three periods have passed since the last commit (R333). -/
def State.lineLimit (s : State) : Nat := s.twn.lastCommit.getD 0 + 3 * s.period * psNs

/-- Cricket has committed no sweep for three periods (R333, R335): ACT_OUT_N is released, and a module
with EN leaves ACTIVE. -/
def roleLineRelease (s : State) : State :=
  if s.twn.actOut && (s.nextCommit.all (fun t => decide (s.lineLimit < t))) then
    let s := s.reach s.lineLimit
    let s := driveRole s
    if s.twinOn && s.active then s.setRole roleNone causeLine else s
  else s

def execRoleLineRelease (s : State) : Host.Outcome State Fault Refusal := .next (roleLineRelease s)

/-- SOLO_MS has passed without port T UP (R334). -/
def soloTimeout (s : State) : State :=
  if s.twinOn && s.role = roleNone && s.flag F.TWN_CFG_SOLO_EN && !(s.portUp portT) && !s.actIn &&
      s.mgmtOk then
    (s.reach (s.mod.readyAt + max 1 (s.fld F.TWN_CFG_SOLO_MS) * psMs)).takeActive causeStart
  else s

def execSoloTimeout (s : State) : Host.Outcome State Fault Refusal := .next (soloTimeout s)

/-- FREE_S reaches 600 s (R347). -/
def autoReturn (s : State) : State :=
  match s.twn.freeFrom with
  | none => s
  | some t =>
    if s.twinOn && s.role = roleStandby && s.flag F.TWN_CTL_AUTO_RET && s.readySb then
      handover (s.reach (t + 600000 * psMs))
    else s

def execAutoReturn (s : State) : Host.Outcome State Fault Refusal := .next (autoReturn s)

/-! ### The admission point (R335, R339, R341, R344, R348) -/

/-- A STANDBY or ARMING module becomes ACTIVE with its newest record: EPOCH advances from the mirrored
value. No later standby takes that record again (DEDUCED). -/
def becomeActive (cause : Nat) (s : State) : State :=
  let s := (mirrorTake s).takeActive cause
  { s with twn := { s.twn with upFrom := some s.sweep, record := [] } }

/-- RELEASE and a conflict take effect (R335). -/
def roleLeave (s : State) : State :=
  let rel := s.flag F.TWN_CTL_RELEASE
  let con := s.twn.conflict
  let s := { s with twn := { s.twn with conflict := false } }.setFlag F.TWN_CTL_RELEASE false
  if s.twinOn && s.active && rel then s.setRole roleNone causeRelease
  else if s.twinOn && s.active && con then s.setRole roleNone causeConflict
  else s

/-- Whether the takeover of an ARMING module is due at an instant (R344). -/
def State.armingDue (s : State) (t : Nat) : Bool :=
  s.role == roleArming && decide (s.twn.roleAt + 2000 * psNs ≤ t)

/-- The takeover (R344). -/
def takeoverAdmit (s : State) : State :=
  if s.armingDue s.now then
    (if s.actIn then s.setRole roleNone causeLoss
     else
      let s := (becomeActive causeTakeover s).setFlag F.TWN_STAT_TAKEOVER true
      { s with twn := { s.twn with grace := some s.sweep } }.report 0x25 0)
  else s

/-- Planned handover at an admission point (R348); the present sweep number is in CRK_SWEEP. -/
def handoverAdmit (s : State) : State :=
  let h := s.reg R.TWN_HO
  if s.twn.ho = .none ∨ s.twn.ho = .req then s
  else if s.active then
    (if s.sweep + 1 = h ∧ s.twn.ho = .ann then
      (if s.twn.hoAck then { s with twn := { s.twn with ho := .go } }
       else { s with twn := { s.twn with ho := .none } }.setFlag F.TWN_STAT_HO_FAIL true)
     else if s.sweep = h ∧ s.twn.ho = .go then
      (s.setRole roleStandby causeHandover).setFlag F.TWN_STAT_HO_DONE true
     else s)
  else if s.role = roleStandby ∧ s.sweep = h then
    (if s.twn.ho = .go then (becomeActive causeHandover s).setFlag F.TWN_STAT_HO_DONE true
     else { s with twn := { s.twn with ho := .none } }.setFlag F.TWN_STAT_HO_FAIL true)
  else s

/-- The sweeps after a takeover in which reports or frames still lag are over: both conditions end, so that
no sweep number half a cycle later meets them again (R340, R345). -/
def graceEnd (s : State) : State :=
  let lag := (List.range 6).foldl (fun m n => max m (s.upLag n)) 0
  let ended := fun (q : Option Word) => q.filter (fun q =>
    decide (0 ≤ sdiff s.sweep q) && decide (sdiff s.sweep q ≤ (lag : Int)))
  { s with twn := { s.twn with upFrom := ended s.twn.upFrom, grace := ended s.twn.grace } }

/-- Twin's part of an admission point, with the sweep number set. -/
def twinAdmit (s : State) : State :=
  let s := graceEnd (fitCheck (sigUpdate (s.setReg R.TWN_SIG s.twnSig)))
  let s := { s with twn := { s.twn with
    recHist := (s.twn.recNew :: s.twn.recHist).take 16, recNew := false } }
  if !s.twinOn then s
  else
    let s := handoverAdmit (takeoverAdmit (roleLeave s))
    let s := if s.role = roleStandby ∨ s.role = roleArming then mirrorTake s else s
    if s.role = roleStandby then freeTime (s.twn.freeFrom.isSome) s else s

/-- Whether MISMATCH is withheld on an arm (R345): until the reports of the takeover sweep's frames are
admitted, and in the sweep that admits them. -/
def State.inGrace (s : State) (n : Nat) : Bool :=
  match s.twn.grace with
  | none => false
  | some q => decide (sdiff s.sweep q ≤ (s.upLag n : Int))

end Sys2Proof.Machine
end

