-- ==== Sys2Proof/Machine/Module.lean ====
section
/-!
DEFINITION. The module (R380 to R399): power-good and power-fail, the backup domain and the
retention fence, start-up and boot images, flash commands, and the supervision of supply,
temperature and backup cell.
-/

namespace Sys2Proof.Machine

/-! ### Pins and supervision (R381 to R383, Table 16.10) -/

/-- PRESENT_N changes level. -/
def presentChange (low : Bool) (s : State) : State :=
  if s.mod.presentLow == low then s
  else { s with mod := { s.mod with presentLow := low, presentAt := s.now } }

/-- MOD_STAT as it reads: PRESENT follows the contact (R381). -/
def State.modStat (s : State) : Word :=
  putBits (s.reg R.MOD_STAT) F.MOD_STAT_PRESENT.lo 1 (if s.mod.presentLow then 1 else 0)

def execPresentChange (low : Bool) (s : State) : Host.Outcome State Fault Refusal :=
  .next (presentChange low s)

/-- Since when VIN12 has been at or above 10.5 V, with its present level (R381). -/
def State.vinSince (s : State) (mv : Nat) : Option Nat :=
  if mv < 10500 then none else if s.mod.vinFrom.isSome then s.mod.vinFrom else some s.now

/-- Since when VIN12 has been below 10.0 V, with its present level (R384). -/
def State.vinLowSince (s : State) (mv : Nat) : Option Nat :=
  if 10000 ≤ mv then none else if s.mod.vinLow.isSome then s.mod.vinLow else some s.now

/-- VIN12 and the input current measured by a module that runs: outside 10.8 to 13.2 V and not below the
power-fail threshold, PWR_WARN and a report once an excursion (R383, Table 16.10). -/
def vinMeasured (mv ma : Nat) (s : State) : State :=
  let s := (s.setFld F.MOD_PWR_VIN_MV mv).setFld F.MOD_PWR_IIN_MA ma
  let out := decide (10000 ≤ mv) && (decide (mv < 10800) || decide (13200 < mv))
  let was := s.mod.vinOut
  let s := { s with mod := { s.mod with vinOut :=
      (was || decide (10000 ≤ mv)) && (decide (mv < 10800) || decide (13200 < mv)) } }
  if out && !was then ((s.setFlag F.MOD_STAT_PWR_WARN true).vector 14).report 0x30 0 else s

/-- The level of VIN12: a module without power only waits for it. -/
def vinExcursion (mv ma : Nat) (s : State) : State :=
  let s := { s with mod := { s.mod with vinFrom := s.vinSince mv, vinLow := s.vinLowSince mv } }
  if s.mod.power = .off then s else vinMeasured mv ma s

def execVinExcursion (mv ma : Fin 65536) (s : State) : Host.Outcome State Fault Refusal :=
  .next (vinExcursion mv.val ma.val s)

/-- The junction temperature, quarter degrees: above WARN_C, TEMP_WARN and a report once an
excursion. -/
def tempExcursion (q : BitVec 12) (s : State) : State :=
  let s := s.setFld F.MOD_TEMP_TJ_MAX q.toNat
  let hot := decide (4 * (s.fld F.MOD_TEMP_WARN_C : Int) < q.toInt)
  let was := s.mod.tempOver
  let s := { s with mod := { s.mod with tempOver := hot } }
  if hot && !was then ((s.setFlag F.MOD_STAT_TEMP_WARN true).vector 14).report 0x2F 0 else s

def execTempExcursion (quarterDeg : BitVec 12) (s : State) : Host.Outcome State Fault Refusal :=
  .next (tempExcursion quarterDeg s)

/-- Eight hours in ps. -/
def bakHours : Nat := 28800000 * psMs

/-- The backup cell's charge and voltage measured: below 95 % from 8 h after power-good, BAK_WARN and a report
once. An `early` measurement is made at once, and only shown while the cell still has time to charge (DESIGN
CHOICE: assumption 269). -/
def bakLow (pct mv : Nat) (early : Bool) (s : State) : State :=
  let s := (s.setFld F.MOD_BAK_CHG pct).setFld F.MOD_BAK_VBAK_MV mv
  if early ∧ s.now < bakHours then s
  else if pct < 95 then
    let s := s.reach bakHours
    let was := s.mod.bakLow
    let s := { s with mod := { s.mod with bakLow := true } }
    if was then s else ((s.setFlag F.MOD_STAT_BAK_WARN true).vector 14).report 0x31 0
  else { s with mod := { s.mod with bakLow := false } }

def execBakLow (pct : Fin 101) (cell : Fin 65536 × Bool) (s : State) : Host.Outcome State Fault Refusal :=
  .next (bakLow pct.val cell.1.val cell.2 s)

/-! ### Power-fail (R384 to R386) -/

/-- The retention SRAM's part of memory and of the ECC marks. -/
def retBase : Nat := 0x08000000
def State.retMem (s : State) : Tab Byte := s.mem.filter (fun e => decide (retBase ≤ e.1))
def State.retEcc (s : State) : Ecc :=
  { ce := s.ecc.ce.filter (fun w => decide (retBase ≤ w * 8))
    ue := s.ecc.ue.filter (fun w => decide (retBase ≤ w * 8)) }

/-- RWL fields as they stand, by register (R390). -/
def State.rwlNow (s : State) : Tab Word :=
  s.regs.filterMap (fun e =>
    match regDesc e.1 with
    | none => none
    | some d =>
      let v := (d.reset &&& ~~~d.rwl) ||| (e.2 &&& d.rwl)
      if v = d.reset then none else some (e.1, v))

/-- Whether Firefly time was traceable: a tracked domain valid and HOLDOVER 0 (Table 16.3). -/
def State.timeTraceable (s : State) : Bool :=
  ((s.tracked false && s.flag F.FFY_STAT_VALID_A) || (s.tracked true && s.flag F.FFY_STAT_VALID_B)) &&
    !(s.flag F.FFY_STAT_HOLDOVER)

/-- What a module without power holds: the backup domain, flash, Mantis's store, and what lies outside the
module. -/
def State.dark (s : State) : State :=
  let d : State := { State.reset with
    pending := s.pending
    now := s.now
    mem := s.retMem
    flash := s.flash
    ecc := s.retEcc
    mts := { State.reset.mts with
      pins := s.mts.pins, evald := s.mts.pins, filt := s.mts.pins, nvBlock := s.mts.nvBlock
      nvConf := s.mts.nvConf }
    mod := { State.reset.mod with
      power := .off, readyPin := none, presentLow := s.mod.presentLow, presentAt := s.mod.presentAt
      vinFrom := s.mod.vinFrom, vinLow := s.mod.vinLow
      recPref := s.mod.recPref, recSrc := s.mod.recSrc
      triesA := s.mod.triesA, triesB := s.mod.triesB, rwl := s.mod.rwl, fence := true
      closing := s.mod.closing, latch := s.mod.latch, backup := s.mod.backup
      traceable := s.mod.traceable, failAt := s.mod.failAt }
    hst := { State.reset.hst with hostMem := s.hst.hostMem }
    free := s.free }
  d.setFlag F.TWN_STAT_ACT_IN s.actIn

/-- What power-fail leaves: the fence with its closing record, and Firefly time in the backup counter (R385,
R386). -/
def State.unpowered (s : State) : State :=
  State.dark { s with mod := { s.mod with
    closing := true, backup := s.ns, traceable := s.timeTraceable, failAt := s.now } }

/-- When power-fail is declared: VIN12 has been below 10.0 V for 20 µs (R384), or PRESENT_N high for 10 µs
(R382), whichever comes first; never without power. -/
def State.failDue (s : State) : Option Nat :=
  let out := s.mod.presentAt + 10 * psUs
  if s.mod.power = .off then none
  else match s.mod.vinLow with
    | some t => some (if s.mod.presentLow then t + 20 * psUs else min out (t + 20 * psUs))
    | none => if s.mod.presentLow then none else some out

/-- The power-fail sequence (Table 16.2). -/
def powerFail (s : State) : State :=
  match s.failDue with
  | none => s
  | some t => (s.reach t).unpowered

def execPowerFail (s : State) : Host.Outcome State Fault Refusal := .next (powerFail s)

/-- The backup rail falls below V_HOLD (R387): the latch trips while the cell carries the domain. -/
def latchTrip (s : State) : State :=
  if s.mod.power = .off then { s with mod := { s.mod with latch := true } } else s

def execLatchTrip (s : State) : Host.Outcome State Fault Refusal := .next (latchTrip s)

/-! ### Power-good (R370, R381, R385, R388, R390) -/

/-- RWL fields restored (R390). -/
def State.rwlRestore (s : State) (l : Tab Word) : State :=
  forL l (fun (e : Nat × Word) s =>
    match regDesc e.1 with
    | none => s
    | some d => s.setReg e.1 ((s.reg e.1 &&& ~~~d.rwl) ||| (e.2 &&& d.rwl))) s

/-- Mantis loads its store (R370). Source 0x13 stands only while the block is invalid (R367), source 0x14
holds block-all as the loaded block says (R358), and a used safety-message bit is at 0 (R357). -/
def mtsLoad (s : State) : State :=
  let s := forL s.mts.nvBlock (fun (e : Nat × Word) s => s.setReg e.1 e.2) s
  let s := if s.paramOk then { s with mts := { s.mts with demands := [0x14] } } else s
  let s := smDemands (s.demandBlock 0x14)
  match s.mts.nvConf with
  | none => s
  | some v =>
    if v = s.mtsChk then
      ((s.setFlag F.MTS_STAT_CONFIRMED true).setFlag F.MTS_STAT_LOCK true).rwlRestore s.mod.rwl
    else s.report 0x2B 0

/-- Time from the backup counter: it has counted on through the outage (R385). -/
def backupTime (s : State) : State :=
  let out := (s.now - s.mod.failAt) / 1000
  let t : Int := if s.mod.latch then 0 else ((s.mod.backup + out : Nat) : Int)
  { s with
    now := 0, ffy := { s.ffy with offset := t }
    mod := { s.mod with outage := out } }

/-- PREF, SRC and the attempt counts from the boot record (Table 16.9). -/
def recordShow (s : State) : State :=
  let s := (s.setFlag F.MOD_BOOT_PREF s.mod.recPref).setFlag F.MOD_BOOT_SRC s.mod.recSrc
  (s.setFld F.MOD_BOOT_TRIES_A s.mod.triesA).setFld F.MOD_BOOT_TRIES_B s.mod.triesB

/-- Power-good: the main switch closes once PRESENT_N has been low for 50 ms and VIN12 at or above 10.5 V
for 10 ms, and start-up begins (R381, R389). What commands did to a module without power is lost. -/
def powerGood (s : State) : State :=
  match s.mod.vinFrom with
  | none => s
  | some v =>
    if s.mod.power = .off ∧ s.mod.presentLow then
      let s := s.reach (max (s.mod.presentAt + 50 * psMs) (v + 10 * psMs))
      let s := s.dark
      let s := { s with mod := { s.mod with
        power := .starting, readyPin := some false, presentAt := 0, vinFrom := some 0 } }
      mtsLoad (recordShow (backupTime s))
    else s

def execPowerGood (s : State) : Host.Outcome State Fault Refusal := .next (powerGood s)

/-! ### REBOOT (R399) -/

def State.rebootOk (s : State) : Bool :=
  s.role == roleNone || s.role == roleStandby || (!s.twinOn && s.quiet)

/-- The MTS block's registers. -/
def isMts (a : Nat) : Bool := decide (R.MTS_STAT ≤ a) && decide (a < 0x160000)

/-- MOD_CTL.REBOOT: power-fail and start-up, with Mantis, the RWL fields and the backup supply kept. The PWM
outputs stay at high impedance for Mantis while it holds block-all with PWM_HIZ (R417). -/
def reboot (s : State) : State :=
  if s.mod.power = .off then s
  else if s.rebootOk then
    let t := { s.unpowered with
      mts := s.mts, regs := s.unpowered.regs.filter (fun e => !(isMts e.1)) }
    let t := forL (s.regs.filter (fun e => isMts e.1)) (fun (e : Nat × Word) t => t.setReg e.1 e.2) t
    let t := t.setCore coreBs (s.core coreBs)
    let t := t.rwlRestore s.rwlNow
    let t := if s.flag F.MTS_STAT_BLOCK_ALL && s.pwmHiz then t.hizAll (fun p => { p with hizMts := true }) else t
    recordShow { t with
      mod := { t.mod with power := .starting, readyPin := some false, outage := 0 }
      ffy := { t.ffy with offset := s.ffy.offset } }
  else s.rejWrite R.MOD_CTL

def execReboot (s : State) : Host.Outcome State Fault Refusal := .next (reboot s)

/-! ### Start-up (R388, R389, R392) -/

/-- A bank has been zeroed and tested (R389). -/
def bankTestDone (b : Nat) (failed : Bool) (s : State) : State :=
  if s.flagBit F.GCR_BANK_BANK_BUSY b then
    let s := (s.setFlagBit F.GCR_BANK_BANK_BUSY b false).setFlagBit F.GCR_BANK_BANK_FAIL b failed
    if failed && decide (5 ≤ b) then s.setFlag F.MTH_STAT_BANK_FAIL true else s
  else s

def execBankTestDone (bank : Fin 8) (failed : Bool) (s : State) : Host.Outcome State Fault Refusal :=
  .next (bankTestDone bank.val failed s)

/-- The retention flags of Table 16.3, and the self-test of the retention SRAM (Table 1.12), whose reads are
checked as any (R25); the fence opens, and retention SRAM that is not valid is zeroed (DEDUCED: assumption
300). -/
def retentionEval (s : State) : State :=
  let m := s.mod
  let bad := s.ecc.ue.any (fun w => decide (retBase ≤ w * 8))
  let valid := !m.latch && m.closing && !bad
  let kept := !m.latch
  let trace := kept && m.traceable && decide (m.outage ≤ max 1 (s.fld F.MOD_BAK_TRACE_S) * 1000000000)
  let s := (if m.latch then s else s.checkRead retBase 0x200000).setFlag F.GCR_BANK_RET_FAIL bad
  let s := (s.setFlag F.MOD_STAT_RETAIN_VALID valid).setFlag F.MOD_STAT_TIME_KEPT kept
  let s := s.setFlag F.MOD_STAT_TIME_TRACEABLE trace
  let s := s.setReg R.MOD_OUTAGE (if kept then BitVec.ofNat 32 (m.outage / 1000000000) else 0xFFFFFFFF)
  let s := if valid then s else
    { s with
      mem := s.mem.filter (fun e => decide (e.1 < retBase))
      ecc := { s.ecc with
        ce := s.ecc.ce.filter (fun w => decide (w * 8 < retBase))
        ue := s.ecc.ue.filter (fun w => decide (w * 8 < retBase)) } }
  { s with mod := { s.mod with fence := false, closing := false, latch := false } }

/-! ### Image headers (R391) -/

def slotBase (slot : Nat) : Nat := if slot = 0 then 0 else 512 * 65536
def State.flashByte (s : State) (a : Nat) : Byte := tget (fun _ => 0xFF) s.flash a
def State.flashBytes (s : State) (a n : Nat) : List Byte := (List.range n).map (fun i => s.flashByte (a + i))

def hdrMagic : Nat := 0x36514D49
def hdrN (h : List Byte) (a n : Nat) : Nat := leNat ((h.drop a).take n)
def hdrFlags (h : List Byte) : Nat := hdrN h 6 2
def hdrStored (h : List Byte) : Nat := hdrN h 8 4
def hdrLoad (h : List Byte) : Nat := hdrN h 12 4
def hdrEntry (h : List Byte) : Nat := hdrN h 16 4

/-- A valid header. -/
def hdrValid (h : List Byte) : Bool :=
  decide (hdrN h 0 4 = hdrMagic) && decide (hdrFlags h < 2) && decide (hdrStored h ≤ 33488832) &&
    decide (1 ≤ hdrLoad h) && decide (hdrLoad h ≤ 16777152) && decide (hdrEntry h % 4 = 0) &&
    decide (0x40 ≤ hdrEntry h) && decide (hdrEntry h ≤ 0xFFFFFC) &&
    ((h.drop 36).take 24).all (fun b => b == 0) && crc32 (h.take 60) == BitVec.ofNat 32 (hdrN h 60 4)

/-- Whether the image runs on this hardware level. -/
def State.hwFits (s : State) (h : List Byte) : Bool := (hdrN h 20 2).testBit (s.fld F.MOD_STAT_HWC)

def State.tries (s : State) (slot : Nat) : Nat := if slot = 0 then s.mod.triesA else s.mod.triesB
def State.setTries (s : State) (slot n : Nat) : State :=
  recordShow { s with mod := if slot = 0 then { s.mod with triesA := n } else { s.mod with triesB := n } }

/-- The slots in turn, up to one whose load begins (R392). -/
def bootNext : List Nat → State → State
  | [], s => { s with mod := { s.mod with slots := [], waitHost := true } }.compat 5 0
  | k :: r, s =>
    let h := s.flashBytes (slotBase k) 64
    if !(hdrValid h) then bootNext r (s.compat 1 k)
    else if !(s.hwFits h) then bootNext r (s.compat 3 k)
    else if s.tries k = 3 then bootNext r (s.compat 4 k)
    else
      let s := s.setTries k (s.tries k + 1)
      { s with mod := { s.mod with slots := k :: r } }

/-- At READY every lane of Hornet is marked for re-selection, with region and gains in force 0 (R139). -/
def gainsReady (s : State) : State :=
  { s with hrn := { s.hrn with gains := [], work := { s.hrn.work with gains := [] } } }.setRegions

/-- READY, once every bank has been tested (Table 16.5): flag and pin, the retention flags, the role of R332, and
the selection of an image. -/
def moduleReady (s : State) : State :=
  if s.mod.power = .starting ∧ s.fld F.GCR_BANK_BANK_BUSY = 0 then
    let s := retentionEval s
    let s := { s with mod := { s.mod with power := .ready, readyPin := some true, readyAt := s.now } }
    let s := s.setFlag F.MOD_STAT_READY true
    let s := gainsReady s
    let s := bsImageLoad (hivClear (s.hizAll (fun p => { p with hizPwr := false })))
    let s := s.setFld F.CRK_STATE_STATE stBlocked
    let s := s.setRole (if s.twinOn then roleNone else roleActive) 0
    let pref := s.fld F.MOD_BOOT_PREF
    if s.flagBit F.GCR_BANK_BANK_FAIL 0 then s.compat 6 0
    else if s.flag F.MOD_BOOT_SRC then { s with mod := { s.mod with waitHost := true } }
    else bootNext [pref, 1 - pref] s
  else s

def execReady (s : State) : Host.Outcome State Fault Refusal := .next (moduleReady s)

/-- B0 starts from a header at SRAM 0 (R392, R393). -/
def imageStart (h : List Byte) (slot : Nat) (host : Bool) (s : State) : State :=
  let s := (s.setFld F.MOD_IMG_IMG_VER (hdrN h 4 2)).setFld F.MOD_IMG_HRN_MIN (hdrN h 22 2)
  let s := (s.setReg R.MOD_TAG (BitVec.ofNat 32 (hdrN h 24 4))).setReg R.MOD_TAG_ALT
    (BitVec.ofNat 32 (hdrN h 28 4))
  let s := (s.setFlag F.MOD_STAT_BOOTED true).setFld F.MOD_STAT_BOOT_SLOT slot
  let s := s.setFlag F.MOD_STAT_BOOT_SRC host
  let s := { s with mod := { s.mod with slots := [], waitHost := false, confirmFrom := some s.now } }
  coreRun 0 (s.setReg R.BTL_BOOT (BitVec.ofNat 32 (hdrEntry h)))

/-- What a slot loads, stored or expanded, and whether a stream and its trailer pass (R392). -/
def State.unpack (s : State) (slot : Nat) (h : List Byte) : List Byte × Bool :=
  let raw := s.flashBytes (slotBase slot + 64) (hdrStored h)
  if hdrFlags h = 1 then
    let t := inflate raw
    let out := t.out.reverse
    let rest := raw.drop (raw.length - t.bits.length / 8)
    (out, t.err.isNone && (rest == leBytes 4 (crc32 out).toNat ++ leBytes 4 out.length))
  else (raw, true)

/-- The payload a slot loads; `none` when a check fails. -/
def State.payload (s : State) (slot : Nat) (h : List Byte) : Option (List Byte) :=
  let x := s.unpack slot h
  if x.2 && decide (x.1.length = hdrLoad h) && crc32 x.1 == BitVec.ofNat 32 (hdrN h 32 4) then some x.1
  else none

/-- A load ends: its bytes stand in memory, at most LOAD_LEN of one that fails its checks (R392). -/
def imageLoadDone (s : State) : State :=
  match s.mod.slots with
  | [] => s
  | k :: r =>
    let h := s.flashBytes (slotBase k) 64
    match s.payload k h with
    | none => bootNext r ((s.store 0x40 ((s.unpack k h).1.take (hdrLoad h))).compat 2 k)
    | some d => imageStart h k false ((s.store 0x40 d).store 0 h)

def execImageLoadDone (s : State) : Host.Outcome State Fault Refusal :=
  .next (startedBy 0 imageLoadDone s)

/-- MOD_CTL.HOST_GO (R393): accepted only while no image has been booted; before READY there is no module
management to act on it (DESIGN CHOICE: assumption 236). -/
def hostGo (s : State) : State :=
  if s.mod.power != .ready then s
  else if s.flag F.MOD_STAT_BOOTED then s.rejWrite R.MOD_CTL
  else
    let h := s.rdBytes 0 64
    let n := hdrLoad h
    let clean := !(s.poisoned 0 (64 + n))
    let d := s.rdBytes 0x40 n
    if hdrValid h && clean && hdrFlags h == 0 && s.hwFits h &&
        crc32 d == BitVec.ofNat 32 (hdrN h 32 4) then
      imageStart h 0 true (s.correct 0 (64 + n))
    else (s.checkRead 0 (64 + n)).compat 0xA 0

def execHostGo (s : State) : Host.Outcome State Fault Refusal :=
  .next (startedBy 0 hostGo s)

/-- MOD_CTL.CONFIRM (R394). -/
def confirmBoot (s : State) : State :=
  if s.flag F.MOD_STAT_BOOTED then
    let s := { s with mod := { s.mod with confirmFrom := none } }
    if s.flag F.MOD_STAT_BOOT_SRC then s else s.setTries (s.fld F.MOD_STAT_BOOT_SLOT) 0
  else s

def execConfirm (s : State) : Host.Outcome State Fault Refusal := .next (confirmBoot s)

/-- CONF_S has passed without CONFIRM (R394). -/
def confirmTimeout (s : State) : State :=
  match s.mod.confirmFrom with
  | none => s
  | some t =>
    let s := s.reach (t + max 1 (s.fld F.MOD_BOOT_CONF_S) * 1000 * psMs)
    { s with mod := { s.mod with confirmFrom := none } }.compat 7 (s.fld F.MOD_STAT_BOOT_SLOT)

def execConfirmTimeout (s : State) : Host.Outcome State Fault Refusal := .next (confirmTimeout s)

/-- A write of MOD_BOOT reaches the boot record (R395), but not without power. -/
def bootWrite (s : State) : State :=
  if s.mod.power = .off then s
  else { s with mod := { s.mod with recPref := s.flag F.MOD_BOOT_PREF, recSrc := s.flag F.MOD_BOOT_SRC } }

/-! ### Flash commands (R395) -/

def flashBooted (s : State) (sector : Nat) : Bool :=
  s.flag F.MOD_STAT_BOOTED && !(s.flag F.MOD_STAT_BOOT_SRC) &&
    decide (sector / 512 = s.fld F.MOD_STAT_BOOT_SLOT)

/-- The code that rejects a flash command; 0 accepts it. -/
def State.flashErr (s : State) (erase : Bool) : Nat :=
  let k := s.fld F.MOD_FSEC_SECTOR
  if k = 511 then 2
  else if flashBooted s k then 1
  else if !erase && decide (0x2000000 < 64 * s.fld F.MOD_FSRC_ADDR + 65536) then 3
  else 0

/-- MOD_FCMD.ERASE or PROG. -/
def flashCmd (erase : Bool) (s : State) : State :=
  if s.flag F.MOD_FCMD_BUSY || s.mod.power == .off then s
  else
    let e := s.flashErr erase
    let s := s.setFld F.MOD_FCMD_ERR e
    if e ≠ 0 then s
    else ({ s with mod := { s.mod with
        fcmd := some (erase, s.fld F.MOD_FSEC_SECTOR, 64 * s.fld F.MOD_FSRC_ADDR) } }.setFlag
          F.MOD_FCMD_BUSY true).setFlag (if erase then F.MOD_FCMD_ERASE else F.MOD_FCMD_PROG) true

def execFlashErase (s : State) : Host.Outcome State Fault Refusal := .next (flashCmd true s)
def execFlashProg (s : State) : Host.Outcome State Fault Refusal := .next (flashCmd false s)

/-- A sector's bytes replaced. -/
def State.flashSector (s : State) (sector : Nat) (f : Nat → Byte) : State :=
  { s with flash := forN 65536 (fun i t => tset (fun _ => 0xFF) (65536 * sector + i) (f i) t) s.flash }

/-- A flash command completes; a programmed sector is verified. One whose programming failed holds free
values. -/
def flashDone (verifyFail : Bool) (s : State) : State :=
  match s.mod.fcmd with
  | none => s
  | some (erase, sector, src) =>
    let s := { s with mod := { s.mod with fcmd := none } }.setFlag F.MOD_FCMD_BUSY false
    let s := s.setFlag (if erase then F.MOD_FCMD_ERASE else F.MOD_FCMD_PROG) false
    let s := s.setFlag F.MOD_FCMD_DONE true
    let junk := fun (s : State) => (s.flashSector sector (Config.freeByte s.free)).draw
    if erase then { s with flash := s.flash.filter (fun e => decide (e.1 / 65536 ≠ sector)) }
    else if s.poisoned src 65536 then junk ((s.checkRead src 65536).setFld F.MOD_FCMD_ERR 4)
    else if verifyFail then junk ((s.correct src 65536).setFld F.MOD_FCMD_ERR 5)
    else
      let d := s.rdBytes src 65536
      (s.correct src 65536).flashSector sector (fun i => d.getD i 0)

def execFlashDone (verifyFail : Bool) (s : State) : Host.Outcome State Fault Refusal :=
  .next (flashDone verifyFail s)

/-! ### Confirmation (R368, R390) -/

/-- A write of MTS_CONFIRM: an accepted confirmation also stores every RWL field in the boot record. -/
def confirmWrite (v : Word) (s : State) : State :=
  let t := mtsConfirm v s
  if s.locked || !t.locked then t else { t with mod := { t.mod with rwl := t.rwlNow } }

def execMtsConfirm (v : Word) (s : State) : Host.Outcome State Fault Refusal := .next (confirmWrite v s)

end Sys2Proof.Machine
end

