-- ==== Sys2Proof/Machine/Moth.lean ====
section
/-!
DEFINITION. Moth (R315 to R324): the records of the sweeps, their tags, triggers and captures.
-/

namespace Sys2Proof.Machine

def phIdle : Nat := 0
def phArmed : Nat := 1
def phPost : Nat := 2
def phFrozen : Nat := 3

def State.mphase (s : State) : Nat := s.fld F.MTH_STAT_PHASE
def State.setMphase (s : State) (p : Nat) : State := s.setFld F.MTH_STAT_PHASE p

/-- The ring's depth in records (R321). -/
def State.ringDepth (s : State) : Nat := if s.mth.red then 2048 else 4096

/-- Whether banks 5 to 7 are tested and not failed (R319). -/
def State.ringOk (s : State) : Bool :=
  s.fld F.GCR_BANK_BANK_BUSY / 32 == 0 && s.fld F.GCR_BANK_BANK_FAIL / 32 == 0

/-! ### Tags (R318) -/

def tagAddr (slot : Nat) : Nat := R.MTH_TAG + 8 * slot

/-- VALID cleared. -/
def State.tagClear (s : State) (slot : Nat) : State :=
  s.setReg (tagAddr slot + 4) (s.reg (tagAddr slot + 4) &&& 0xFFFFFFFE)

/-- The tag of a complete record. -/
def State.tagWrite (s : State) (r : RecSt) : State :=
  (s.setReg (tagAddr r.slot) r.sweep).setReg (tagAddr r.slot + 4)
    (BitVec.ofNat 32 (r.flags + 1 + 65536 * r.n))

/-- Every tag cleared (R319). -/
def State.tagsClear (s : State) : State :=
  { s with regs := s.regs.filter (fun e =>
      !(decide (R.MTH_TAG ≤ e.1) && decide (e.1 < R.MTH_TAG + 0x8000))) }

/-! ### Voltage arrays (R315, R316) -/

/-- The entry of a cell with no valid report. -/
def noReport : Nat := 0xFFFF

/-- A valid report's VCAP as recorded. -/
def recorded (vcap : Nat) : Nat := min vcap 0xFFFE

/-- A report admitted in the present sweep (R315). -/
def mothReport (id vcap : Nat) (s : State) : State :=
  { s with mth := { s.mth with rep := tset (fun _ => noReport) id (recorded vcap) s.mth.rep } }

/-- An array as bytes. -/
def arrayBytes (f : Nat → Nat) : List Byte := (List.range 6144).flatMap (fun c => leBytes 2 (f c))

/-- Minimum and maximum with one more sweep's reports. -/
def minWith (rep : Tab Nat) (m : Tab Nat) : Tab Nat :=
  forL rep (fun (e : Nat × Nat) m =>
    tset (fun _ => noReport) e.1 (min (tget (fun _ => noReport) m e.1) e.2) m) m
def maxWith (rep : Tab Nat) (m : Tab Nat) : Tab Nat :=
  forL rep (fun (e : Nat × Nat) m =>
    let x := tget (fun _ => noReport) m e.1
    tset (fun _ => noReport) e.1 (if x = noReport then e.2 else max x e.2) m) m

/-- MTH_RED.N as it acts (Table 13.8). -/
def State.redN (s : State) : Nat := max 4 (min 4096 (s.fld F.MTH_RED_N))

/-! ### Completion of a record (R318, R321, R323) -/

/-- A slot is written again: the record of the capture that lay there is gone, and one that a job has not read
is lost to that job (R323). -/
def State.overwritten (s : State) (slot : Nat) : State :=
  let s := { s with mth := { s.mth with
    cap := s.mth.cap.map (fun r => if r.slot == slot then { r with gone := true } else r) } }
  forN 2 (fun e s =>
    let j := s.job e
    let hit := fun (x : Piece) => match x with
      | .record r => r.slot == slot
      | .mem _ _ => false
      | .lost => false
    let n := (j.toRead.filter hit).length
    if n = 0 then s
    else (s.setJob e { j with toRead := j.toRead.filter (fun x => !(hit x)), gap := j.gap + n }).bump
      F.MTH_LOSS_VAL n) s

/-- A stream job takes a record as it completes (R323). -/
def State.streamed (s : State) (r : RecSt) : State :=
  forN 2 (fun e s =>
    let j := s.job e
    if s.trmBusy e && j.src == 2 && !j.closed then
      trmWork e (s.setJob e { j with toRead := j.toRead ++ [.record r] })
    else s) s

/-- PHASE goes to FROZEN with the capture's records (R321). -/
def State.freeze (s : State) : State :=
  let m := s.mth
  (({ s with mth := { m with cap := m.cap.take (m.pre + 1 + m.post) } }).setMphase phFrozen).vector 12

/-- The capture's account of a completed record: the trigger record, then POST more (R321). -/
def State.captureStep (s : State) (r : RecSt) : State :=
  let m := s.mth
  let s1 := { s with mth := { m with cap := r :: m.cap.take (s.ringDepth - 1) } }
  if s.mphase = phArmed then s1
  else if s.mphase = phPost then
    (if m.trigDone then
      (if m.postLeft ≤ 1 then s1.freeze
       else { s1 with mth := { s1.mth with postLeft := m.postLeft - 1 } })
     else if r.flags.testBit 4 then
      (if m.post = 0 then s1.freeze else { s1 with mth := { s1.mth with trigDone := true } })
     else s1)
  else s

/-- The write under way completes; a complete record gets its tag (R318). -/
def recordDone (s : State) : State :=
  match s.mth.writing with
  | none => s
  | some r =>
    let s := { s with mth := { s.mth with writing := none } }
    if r.last then (((s.tagWrite r).setReg R.MTH_HEAD r.sweep).captureStep r).streamed r else s

/-! ### The commit point (R315 to R317, R320 to R322) -/

/-- Whether the sweep that commits is recorded. -/
def State.recording (s : State) : Bool :=
  s.mth.en && s.ringOk && s.mphase != phFrozen && s.running

/-- Sweeps in a record (Table 13.1). -/
def State.recSweeps (s : State) : Nat := if s.mth.red then s.mth.ivLen else if s.alt then 2 else 1

/-- The record a sweep opens. -/
def State.opened (s : State) : OpenRec :=
  let n := s.sweep.toNat
  if s.mth.red then { slot := s.mth.ivIndex % 2048, sweep := s.sweep }
  else if s.alt then { slot := n / 2 % 4096, sweep := BitVec.ofNat 32 (n / 2 * 2), n := n % 2 }
  else { slot := n % 4096, sweep := s.sweep }

/-- The sweep is gathered into the open record, or opens one; in reduced mode its reports go into the
minima and maxima (R316). -/
def State.gather (s : State) (late : Bool) : State :=
  let keep := s.mth.open_.filter (fun o => s.mth.red || o.sweep == s.opened.sweep)
  let s := if keep.isNone then { s with mth := { s.mth with ivMin := [], ivMax := [] } } else s
  let o := keep.getD s.opened
  let m := s.mth
  { s with mth := { m with
    open_ := some { o with late := o.late || late, n := o.n + 1 }
    ivMin := if m.red then minWith m.rep m.ivMin else m.ivMin
    ivMax := if m.red then maxWith m.rep m.ivMax else m.ivMax } }

/-- A trigger taken: the open record becomes T (R320, R322). -/
def State.trigger (s : State) (hit : Nat) : State :=
  let d := s.ringDepth
  let pre := min (s.fld F.MTH_PRE_PRE) (d - 1)
  let held := s.mth.cap.length + (if s.mth.writing.isSome then 1 else 0)
  let s := if held < pre then s.setFlag F.MTH_STAT_PRE_SHORT true else s
  let s := (s.setFld F.MTH_THIT_HIT hit).setMphase phPost
  match s.mth.open_ with
  | none => s
  | some o =>
    { s with mth := { s.mth with
      open_ := some { o with trig := true }
      pre := min pre held, trigDone := false, post := d - 1 - pre, postLeft := d - 1 - pre
      } }.setReg R.MTH_TRIG o.sweep

/-- FLAGS without VALID of a record as it closes. -/
def State.recFlags (s : State) (o : OpenRec) : Nat :=
  (if o.late then 2 else 0) + (if s.alt && !s.mth.red then 4 else 0) + (if s.mth.red then 8 else 0) +
    (if o.trig then 16 else 0)

/-- The entries of one half of every lane, as runs of 64 (R36, R315). -/
def storeHalf (a half : Nat) (f : Nat → Nat) (s : State) : State :=
  forN 48 (fun k s =>
    let c := 128 * k + 64 * half
    s.store (a + 2 * c) ((List.range 64).flatMap (fun i => leBytes 2 (f (c + i))))) s

/-- The ring entries that the sweep writes. A pair that opens with its odd sweep has no report in its
even half. -/
def State.ringWrite (s : State) (r : RecSt) (first : Bool) : State :=
  let a := recAddr r
  let s := s.scrubDefers (a / 0x1000000)
  let f := tget (fun _ => noReport) s.mth.rep
  if s.mth.red then
    s.store a (arrayBytes (tget (fun _ => noReport) s.mth.ivMin) ++
      arrayBytes (tget (fun _ => noReport) s.mth.ivMax))
  else if s.alt then
    let half := s.sweep.toNat % 2
    let s := if first && half == 1 then storeHalf a 0 (fun _ => noReport) s else s
    storeHalf a half f s
  else s.store a (arrayBytes f)

/-- The write of the sweep's part of the open record begins (R317, R318); an interval is written when
its last sweep has committed, unless the record before it has frozen the capture (R321). -/
def State.beginWrite (s : State) (o : OpenRec) : State :=
  let last := decide (s.recSweeps ≤ o.n)
  if s.mth.red && !last then s
  else
    let s := if s.mth.red then recordDone s else s
    if s.mphase = phFrozen then { s with mth := { s.mth with open_ := none } } else
    let r : RecSt := { slot := o.slot, sweep := o.sweep, flags := s.recFlags o, n := o.n, last := last }
    let s := if o.begun then s else (s.overwritten o.slot).tagClear o.slot
    let s := s.ringWrite r (!o.begun)
    let m := s.mth
    { s with mth := { m with
      writing := some r, open_ := if last then none else some { o with begun := true }
      ivIndex := if m.red then m.ivIndex + 1 else m.ivIndex } }

/-- Moth's part of a commit point: the previous record is complete, a trigger is decided, and the
sweep's record begins. While nothing is recorded no record stays open. -/
def mothCommit (late : Bool) (s : State) : State :=
  let s := if s.mth.red then s else recordDone s
  let hit := s.mth.fired &&& s.fld F.MTH_TSRC_SRC
  let rec_ := s.recording
  let s := { s with mth := { s.mth with fired := 0 } }.setFlag F.MTH_CTL_TRIG false
  let s := if rec_ then s.gather late else { s with mth := { s.mth with open_ := none } }
  let s := if hit = 0 then s
    else if s.mphase = phArmed ∧ rec_ then s.trigger hit
    else s.bump F.MTH_THIT_IGN 1
  match s.mth.open_ with
  | none => s
  | some o => s.beginWrite o

/-! ### The admission point (R319, R322) -/

/-- A job that waits with a record before it may have begun that record: it is completed as far as it was
read, how far being free, with 0xFF in every byte after that (R319); a poisoned word met so far skips it
(R324). -/
def trmFill (e : Nat) (s : State) : State :=
  let j := s.job e
  match j.toRead with
  | .record r :: _ =>
    let a := recAddr r
    let n := recLen r.flags
    let k := Config.freeRead s.free % (n + 2)
    let s := s.draw
    if j.closed || decide (n < k) then s
    else if s.poisoned a k then trmSkip e ((s.checkRead a k).setFlag F.MTH_STAT_POISON true)
    else
      let s := s.correct a k
      s.setJob e { j.consume (drainHeader r j.gap n ++ s.rdBytes a k ++ List.replicate (n - k) 0xFF) with
      gap := 0 }
  | _ => s

/-- Running jobs whose source is Moth end with MOTH_STATE (R319), also one whose stream is closed and waits
for its output. -/
def State.endMothJobs (s : State) : State :=
  forN 2 (fun e s =>
    if s.trmBusy e && (s.job e).src != 0 then
      (if (s.job e).closed then s.setJob e { s.job e with code := tcMothState }
       else trmClose e tcMothState (trmFill e s))
    else s) s

/-- A change of EN from 0 to 1 or of MODE: tags, capture and PHASE start afresh (R319). -/
def State.mothFresh (s : State) : State :=
  let s := s.tagsClear.setMphase phIdle
  let m := s.mth
  { s with mth := { m with
    writing := none, open_ := none, ivIndex := 0, cap := [], trigDone := false, pre := 0, post := 0
    postLeft := 0 } }

/-- ARM takes effect (R322). -/
def State.mothArm (s : State) : State :=
  if s.flag F.MTH_CTL_ARM then
    let s := s.setFlag F.MTH_CTL_ARM false
    if s.mphase = phIdle ∨ s.mphase = phFrozen then
      { s with mth := { s.mth with cap := [], trigDone := false } }.setMphase phArmed
    else s
  else s

/-- Moth's part of an admission point; the reports of the new sweep are gathered afresh, and an interval
that begins here takes the present MTH_RED.N (R316, Table 13.8). -/
def mothAdmit (s : State) : State :=
  let en := s.flag F.MTH_CTL_EN
  let red := s.flag F.MTH_CTL_MODE
  let fresh := (en && !s.mth.en) || red != s.mth.red
  let s := if fresh || en != s.mth.en then s.endMothJobs else s
  let s := if fresh then s.mothFresh else if en then s else { s with mth := { s.mth with open_ := none } }
  let iv := if s.mth.open_.isNone then s.redN else s.mth.ivLen
  { s with mth := { s.mth with en := en, red := red, rep := [], ivLen := iv } }.mothArm

/-! ### Commands -/

def execRecordDone (s : State) : Host.Outcome State Fault Refusal := .next (recordDone s)

/-- MTH_CTL.TRIG (Table 13.3, source 0): it reads 1 until the commit point that takes it (R13, R320). -/
def trigWrite (s : State) : State := (s.mothFire 0).setFlag F.MTH_CTL_TRIG true

def execTrig (s : State) : Host.Outcome State Fault Refusal := .next (trigWrite s)

/-- MTH_CTL.ARM: accepted in IDLE and FROZEN, where it stays set until the next admission point;
discarded in ARMED and POST (R322). -/
def armWrite (s : State) : State :=
  if s.mphase = phIdle ∨ s.mphase = phFrozen then s.setFlag F.MTH_CTL_ARM true else s

/-- MTH_CTL.LOSS_CLR (R323). -/
def execLossClr (s : State) : Host.Outcome State Fault Refusal := .next (s.setReg R.MTH_LOSS 0)

/-- EN and MODE written (R319). -/
def mothModeWrite (en mode : Bool) (s : State) : State :=
  (s.setFlag F.MTH_CTL_EN en).setFlag F.MTH_CTL_MODE mode

end Sys2Proof.Machine
end

