-- ==== Sys2Proof/Machine/RegWrite.lean ====
section
/-!
DEFINITION. A write of a register, whoever makes it: the access codes of its fields, the rules that
refuse it, and the action it starts (R8 to R13, and the rule of each register).
-/

namespace Sys2Proof.Machine

/-! ### Shared parts -/

/-- A write by the access codes, with the W1S bits left out: their actions follow by themselves. -/
def State.plain (s : State) (off : Nat) (data : Word) : State :=
  match regDesc off with
  | none => s
  | some d => s.baseWrite off (data &&& ~~~d.w1s)

/-- The value such a write leaves. -/
def State.after (s : State) (off : Nat) (data : Word) : Word :=
  match regDesc off with
  | none => 0
  | some d => writeValue d s.locked (s.reg off) (data &&& ~~~d.w1s)

/-- An action for every bit of a word that is 1, below bit `n`. -/
def forBits (n : Nat) (w : Word) (f : Nat → State → State) (s : State) : State :=
  forN n (fun i s => if w.getLsbD i then f i s else s) s

/-- An action when a one-bit field is written 1. -/
def ifSet (data : Word) (x : Fld) (f : State → State) (s : State) : State :=
  if writes1 data x then f s else s

/-- The _LO registers of the 64-bit pairs that are written (R11). -/
def pairLo (off : Nat) : Bool :=
  off == R.FFY_STEP_LO || off == R.CRK_DBAT_LO || off == R.HIV_TMASK_LO

/-- The _HI register of a pair is written: its value waits for the write of _LO (R11). -/
def isHiOfPair (off : Nat) : Bool :=
  decide (4 ≤ off) && (pairLo (off - 4) || off - 4 == R.CRK_EPOCH_LO)
def stageHi (off : Nat) (data : Word) (s : State) : State :=
  { s with hiStage := tset (fun _ => none) off (some data) s.hiStage }

/-- _LO is written: both take effect as one value. -/
def pairWrite (off : Nat) (data : Word) (s : State) : State :=
  (s.setReg (off + 4) (s.stagedHi off)).setReg off data

/-! ### Firefly (R237, R238, R242, R248) -/

/-- RATE within ±200 ppm (R235). -/
def State.rateTarget (s : State) : Int := max (-rateLimit) (min rateLimit (s.regS R.FFY_RATE))

/-- The CK lanes of every port are out of LOCKED. -/
def State.ckLosses (s : State) : State := forN 7 ckLoss s

/-- FFY_CTL.RELOCK: the outputs are gated to their idle level, so that no lane sends, every CK lane stops and
PPS_OUT is low (R238, R249). RATE_ACT takes RATE in holdover too (DESIGN CHOICE: assumption 295). -/
def relock (s : State) : State :=
  if s.ffy.relock then s
  else if s.opState = stBlocked ∧ !s.running then
    let s := s.setReg R.FFY_RATE_ACT (BitVec.ofInt 32 s.rateTarget)
    let s := (slewing s).setFlag F.FFY_CTL_RELOCK true
    let s := (s.setFlag F.FFY_STAT_GATED true).setFlag F.FFY_STAT_LOCK false
    let s := { s with ffy := { s.ffy with relock := true, lockAt := none, pps := false } }
    pwmGate (s.lanesGate.ckLosses)
  else s.rejWrite R.FFY_CTL

def execRelock (src : Src) (s : State) : Host.Outcome State Fault Refusal :=
  match src with
  | _ => .next (relock s)

/-- The PLL reports lock during a relock. -/
def pllLock (s : State) : State :=
  if s.ffy.relock && s.ffy.lockAt.isNone then { s with ffy := { s.ffy with lockAt := some s.now } } else s

def execPllLock (s : State) : Host.Outcome State Fault Refusal := .next (pllLock s)

/-- The gated outputs are released 10 µs after lock. -/
def outputRelease (s : State) : State :=
  match s.ffy.lockAt with
  | none => s
  | some t =>
    let s := s.reach (t + 10 * psUs)
    let s := (s.setFlag F.FFY_STAT_GATED false).setFlag F.FFY_STAT_LOCK true
    let s := { s with ffy := { s.ffy with relock := false, lockAt := none, releasedAt := s.now } }
    pwmGate ((s.setFlag F.FFY_CTL_RELOCK false).lanesGate)

def execOutputRelease (s : State) : Host.Outcome State Fault Refusal := .next (outputRelease s)

/-- FFY_CTL: a write whose STEP or RELOCK is refused is discarded whole. With PPS_EN cleared, a pulse of
PPS_OUT runs to its end (DESIGN CHOICE: assumption 297). -/
def ffyCtlWrite (data : Word) (s : State) : State :=
  let step := writes1 data F.FFY_CTL_STEP
  let rel := writes1 data F.FFY_CTL_RELOCK
  if (step && !(s.quiet && !s.running)) || (rel && !s.ffy.relock && !(s.opState == stBlocked && !s.running)) then
    s.rejWrite R.FFY_CTL
  else
    let s := s.plain R.FFY_CTL data
    let s := if step then timebaseStep s else s
    if rel then relock s else s

/-- FFY_PTP: a GROUP_N outside 1 to 32 discards the write; a domain no longer tracked is not valid. -/
def ffyPtpWrite (data : Word) (s : State) : State :=
  let g := cfgBits (s.after R.FFY_PTP data) F.FFY_PTP_GROUP_N
  if 1 ≤ g ∧ g ≤ 32 then
    let s := s.plain R.FFY_PTP data
    peerTrim (forL [true, false] (fun b s => if s.tracked b then s else domInvalid b s) s)
  else s

/-- FFY_EVn_CTL: EN going to 1 may fire the event at once (R247). -/
def evCtlWrite (n : Nat) (data : Word) (s : State) : State :=
  let off := R.FFY_EV_CTL + 0x10 * n
  let was := s.flag (evUp n F.FFY_EV_CTL_EN)
  let s := (s.plain off data).setFlag (evUp n F.FFY_EV_CTL_EN) was
  if writes1 data F.FFY_EV_CTL_EN then evEnable n s else s.setFlag (evUp n F.FFY_EV_CTL_EN) false

/-- A register of Firefly written (R235 to R249). A write of FFY_DOM leaves VALID and the run of Syncs of a
domain (DESIGN CHOICE: assumption 245). -/
def ffyWrite (off : Nat) (data : Word) (s : State) : State :=
  if off = R.FFY_CTL then ffyCtlWrite data s
  else if off = R.FFY_RATE then rateWrite data s
  else if off = R.FFY_PTP then ffyPtpWrite data s
  else if off = R.FFY_DOM then
    ifSet data F.FFY_DOM_INV_B (domInvalid true) (ifSet data F.FFY_DOM_INV_A (domInvalid false)
      (s.plain off data))
  else if 0x10100 ≤ off ∧ off < 0x10200 then
    let n := (off - 0x10100) / 0x10
    if off % 0x10 = 0 then evTWrite n data s
    else if off % 0x10 = 8 then evCtlWrite n data s
    else s.plain off data
  else if 0x10200 ≤ off ∧ off % 0x10 = 0 ∧ 8 ≤ cfgBits data F.FFY_CAP_CTL_SRC then s
  else s.plain off data

/-! ### Cricket -/

def crkWrite (off : Nat) (data : Word) (s : State) : State :=
  if off = R.CRK_CTL then (if writes1 data F.CRK_CTL_RUN then sweepsRun s else sweepsStop s)
  else if off = R.CRK_PERIOD then gridWrite .period data s
  else if off = R.CRK_EPOCH_LO then gridWrite .epoch data s
  else if off = R.CRK_WIN then gridWrite .win data s
  else if off = R.CRK_STATE then armTestWrite data s
  else if off = R.CRK_CMD then commandWrite (bitsOf data 0 4) s
  else s.plain off data

/-! ### Swarm -/

def swmArmWrite (n o off : Nat) (data : Word) (s : State) : State :=
  let v := s.after off data
  if o = 0 then (if cfgBits v F.SWM_CTL_MED = 3 then s else s.plain off data)
  else if o = 4 then
    (if 1024 < cfgBits v F.SWM_CFG_N_SLOTS ∨ cfgBits v F.SWM_CFG_N_SLOTS < cfgBits v F.SWM_CFG_N_MIN then s
     else s.plain off data)
  else if o = 0x14 then
    (if 20 ≤ cfgBits v F.SWM_EDGE_SEP_NS ∧ cfgBits v F.SWM_EDGE_SEP_NS ≤ 1000 then s.plain off data
     else s.rejWrite off)
  else if o = 0x38 then ifSet data F.SWM_TBL_REFRESH (refresh n) (s.plain off data)
  else if o = 0x3C then ifSet data F.SWM_HOOK_LOAD (hookLoad n) s
  else if o = 0x40 then ifSet data F.SWM_TEST_GO (testGo n) s
  else s.plain off data

def swmWrite (off : Nat) (data : Word) (s : State) : State :=
  if off < 0x58000 then swmArmWrite ((off - 0x40000) / 0x4000) (off % 0x4000) off data s
  else if off = R.SWM_CAL then ifSet data F.SWM_CAL_START dcalStart (s.plain off data)
  else if 0x60000 ≤ off ∧ off < 0x66000 then ifSet data F.SWM_CF_CLR (clrRequest ((off - 0x60000) / 4)) s
  else s.plain off data

/-! ### Hornet (R124, R126, R147 to R149, R152) -/

/-- A word written into a program bank: an armed injection of TARGET 4 spoils its check bits (R377). -/
def hrnBankWord (off : Nat) (data : Word) (s : State) : State :=
  let t := hrnWord off data s
  if s.injected 4 then { t with hrn := { t.hrn with poison := kins off t.hrn.poison } }.injDone else t

def hrnCtlWrite (data : Word) (s : State) : State :=
  let en := writes1 data F.HRN_CTL_EXEC_EN
  if !en && !s.quiet then s.rejWrite R.HRN_CTL
  else ifSet data F.HRN_CTL_TMAX_CLR tmaxClr (ifSet data F.HRN_CTL_PUBLISH publish (execEnWrite en s))

def hrnWrite (off : Nat) (data : Word) (s : State) : State :=
  if off = R.HRN_CTL then hrnCtlWrite data s
  else if off = R.HRN_BANK then ifSet data F.HRN_BANK_LOAD hrnBankLoad (s.plain off data)
  else if off = R.HRN_PAR then ifSet data F.HRN_PAR_SWAP hrnParSwap (s.plain off data)
  else if off % 4 ≠ 0 then s
  else if 0x84000 ≤ off ∧ off < 0x88000 then
    (if !(s.flag F.HRN_CTL_EXEC_EN) && s.quiet then hrnWord off data s else s.rejWrite off)
  else if 0x88000 ≤ off ∧ off < 0x90000 then
    (if (off - 0x88000) / 0x4000 = bankAct s then s.rejWrite off else (hrnBankWord off data s).recheck false)
  else if 0x90000 ≤ off ∧ off < 0xA0000 then
    (if (off - 0x90000) / 0x8000 = pageAct s then s.rejWrite off else (hrnWord off data s).recheck true)
  else s.plain off data

/-! ### Midge and Lacewing -/

/-- A channel code of Table 6.1 in each of the four entries. -/
def seqOk (data : Word) : Bool := (List.range 4).all (fun e => decide (bitsOf data (4 * e) 4 < 7))

def mdgWrite (off : Nat) (data : Word) (s : State) : State :=
  if off = R.MDG_SWTRIG then forBits 16 data swTrigger s
  else if off = R.MDG_REARM then forBits 16 data mdgRearm s
  else if 0xA0100 ≤ off ∧ off < 0xA0300 ∧ off % 0x20 = 0 then
    let src := cfgBits data F.MDG_CFG_TRIG_SRC
    if 5 ≤ src ∨ ((src = 2 ∨ src = 3) ∧ 12 ≤ cfgBits data F.MDG_CFG_TRIG_SEL) then s else s.plain off data
  else if 0xA0100 ≤ off ∧ off < 0xA0300 ∧ off % 0x20 = 8 then
    (if seqOk data then s.plain off data else s.rejWrite off)
  else s.plain off data

def lcwWrite (off : Nat) (data : Word) (s : State) : State :=
  if off = R.LCW_CTL then
    (if !(writes1 data F.LCW_CTL_EN) && !s.quiet then s.rejWrite off else s.plain off data)
  else if 0xB0100 ≤ off ∧ off < 0xB0500 ∧ off % 0x10 = 0 ∧ cfgBits data F.LCW_SRC_DEC = 3 then s
  else s.plain off data

/-! ### Dragonfly (R184, R189, R197, R201) -/

/-- DFY_PCTL of a port: refused whole when BRINGUP, DOWN or IMP_GO is; DOWN acts before BRINGUP. -/
def pctlWrite (p : Nat) (data : Word) (s : State) : State :=
  let off := R.DFY_PCTL + 0x2000 * p
  let up := writes1 data F.DFY_PCTL_BRINGUP
  let dn := writes1 data F.DFY_PCTL_DOWN
  let imp := writes1 data F.DFY_PCTL_IMP_GO
  if ((up || dn) && !(s.mayTrain p)) || (imp && !(s.impAllowed p)) then s.rejWrite off
  else
    let s := s.plain off data
    let s := if dn then down p s else if up then bringup p s else s
    if imp then impGo p s else s

def dfyWrite (off : Nat) (data : Word) (s : State) : State :=
  if off = R.DFY_EQ_CTL then ifSet data F.DFY_EQ_CTL_LOAD eqLoad (s.plain off data)
  else if 0xCE000 ≤ off then s.plain off data
  else
    let p := (off - 0xC0000) / 0x2000
    let o := off % 0x2000
    if o = 0 then pctlWrite p data s
    else if 0x100 ≤ o ∧ o < 0x200 ∧ o % 0x20 = 0xC then
      ifSet data F.DFY_ESCTL_START (eyeScanStart p ((o - 0x100) / 0x20)) (s.plain off data)
    else s.plain off data

/-! ### Hive -/

def hivWrite (src : Src) (off : Nat) (data : Word) (s : State) : State :=
  if off = R.HIV_CTL then ifSet data F.HIV_CTL_INIT hivInit s
  else if off = R.HIV_DONE then hivRelease (cfgBits data F.HIV_DONE_TAG) s
  else if off = R.HIV_HEV then hivSetFlag (cfgBits data F.HIV_HEV_TASK) (cfgBits data F.HIV_HEV_FLAG) s
  else if off = R.HIV_QCMD then
    ifSet data F.HIV_QCMD_FLUSH flushStart (ifSet data F.HIV_QCMD_RD queueRd
      (ifSet data F.HIV_QCMD_WR queueWr s))
  else if off = R.HIV_TCMD then
    ifSet data F.HIV_TCMD_CLRF taskClrf (ifSet data F.HIV_TCMD_RD taskRd (ifSet data F.HIV_TCMD_WR taskWr s))
  else if off = R.HIV_AUDIT then ifSet data F.HIV_AUDIT_SNAP hivSnap (s.plain off data)
  else if 0x100080 ≤ off ∧ off < 0x1000C0 ∧ off % 4 = 0 then hivGwWrite ((off - 0x100080) / 4) data s
  else if 0x100100 ≤ off ∧ off < 0x100180 ∧ off % 0x10 = 8 then
    (if data.getLsbD 0 then hivYield ((off - 0x100100) / 0x10) s else s)
  else if off = R.HIV_YIELD_SELF then
    (match src with
    | .core n => if data.getLsbD 0 then hivYield n.val s else s
    | _ => s)
  else s.plain off data

/-! ### Moth and Termite -/

def mthWrite (off : Nat) (data : Word) (s : State) : State :=
  if off = R.MTH_CTL then
    ifSet data F.MTH_CTL_LOSS_CLR (fun s => s.setReg R.MTH_LOSS 0)
      (ifSet data F.MTH_CTL_TRIG trigWrite (ifSet data F.MTH_CTL_ARM armWrite
        (mothModeWrite (writes1 data F.MTH_CTL_EN) (writes1 data F.MTH_CTL_MODE) s)))
  else s.plain off data

/-- TRM_CMD: the commands other than START act on the job that ran at the write. -/
def trmWrite (off : Nat) (data : Word) (s : State) : State :=
  let e := (off - 0x130000) / 0x20
  if 2 ≤ e then s
  else if off % 0x20 = 4 then
    if s.trmBusy e then
      (if writes1 data F.TRM_CMD_ABORT then trmAbort e s
       else ifSet data F.TRM_CMD_FINISH (trmFinish e) (ifSet data F.TRM_CMD_RESUME (trmResume e) s))
    else ifSet data F.TRM_CMD_START (trmStart e) s
  else s.plain off data

/-! ### Twin -/

/-- TWN_CTL: EN changes the role (R332). -/
def twnCtlWrite (data : Word) (s : State) : State :=
  let was := s.twinOn
  let s := s.plain R.TWN_CTL data
  let s :=
    if s.twinOn == was then s
    else
      let s := { s with twn := { s.twn with
        ho := .none, hoAck := false, nextBeat := none, lastBeat := none, beats := [], seen := false, unitTold := false } }
      if was then s.takeActive 0 else s.setRole roleNone 0
  ifSet data F.TWN_CTL_RELEASE releaseWrite (ifSet data F.TWN_CTL_HANDOVER handover s)

def twnWrite (off : Nat) (data : Word) (s : State) : State :=
  if off = R.TWN_CTL then twnCtlWrite data s
  else if off = R.TWN_CFG ∧ 32 < cfgBits (s.after off data) F.TWN_CFG_ST_N then s
  else if off = R.TWN_BULK_LEN ∧
      0x800000 < 16 * (s.fld F.TWN_BULK_OFS_OFS + cfgBits data F.TWN_BULK_LEN_LEN) then s
  else s.plain off data

/-! ### Mantis -/

/-- A write into BS's memory from outside: only while RUN is 0 and LOCK is 0 (R362). -/
def bsmemWrite (off : Nat) (data : Word) (s : State) : State :=
  if s.flag F.MTS_BS_RUN || s.locked then s.rejWrite off
  else s.setBsWord (off - R.MTS_BSMEM) data

def mtsWrite (src : Src) (off : Nat) (data : Word) (s : State) : State :=
  if off = R.MTS_CMD then
    s.logOrder (ifSet data F.MTS_CMD_UNLOCK (mtsUnlock (cfgBits data F.MTS_CMD_KEY))
      (ifSet data F.MTS_CMD_TRIP mtsTrip (ifSet data F.MTS_CMD_RESET mtsReset s)))
  else if off = R.MTS_CONFIRM then confirmWrite data s
  else if off = R.MTS_BS then (if writes1 data F.MTS_BS_RUN then bsRun s else bsStop s)
  else if off = R.MTS_BSDEM then
    (match src with
    | .bs => bsdemWrite data s
    | _ => s)
  else if off = R.MTS_INJ then (if s.flag F.MTS_STAT_FTM then s else s.rejWrite off)
  else if off % 4 ≠ 0 then s
  else if R.MTS_PARAM ≤ off ∧ off < R.MTS_PARAM + 256 then paramWrite off data s
  else if R.MTS_BSMEM ≤ off then bsmemWrite off data s
  else s.plain off data

/-! ### Cicada -/

def ccdWrite (off : Nat) (data : Word) (s : State) : State :=
  if off = R.CCD_SWREP then ccdSwrep data s
  else if off = R.CCD_STAT0 then statClear false data s
  else if off = R.CCD_STAT1 then statClear true data s
  else if off = R.CCD_INJ then ccdInj data s
  else if 0x160100 ≤ off ∧ off < 0x160140 ∧ off % 4 = 0 then rctWrite ((off - 0x160100) / 4) data s
  else s.plain off data

/-! ### Cores and tasks -/

/-- BTL_HALT.RESUME (R282): the core goes on from BTL_PC. -/
def resume (n : Nat) (s : State) : State :=
  if (s.core n).halted then pwmRefreeze (s.setCore n { s.core n with halted := false, haltReq := false })
  else s

/-- BTL_HALT: a HALT and a RESUME of one core are both discarded. -/
def haltWrite (data : Word) (s : State) : State :=
  forN 8 (fun n s =>
    let h := data.getLsbD n
    let r := data.getLsbD (8 + n)
    if h && !r then halt n s else if r && !h then resume n s else s) s

/-- BTL_CTL: RUN bits that change start and stop cores (R253). -/
def btlCtlWrite (data : Word) (s : State) : State :=
  forN 8 (fun n s => if data.getLsbD n then coreRun n s else coreStop n s)
    (s.setFlag F.BTL_CTL_DBG_EN (writes1 data F.BTL_CTL_DBG_EN))

/-- A task's field. -/
def taskFld (t : Nat) (x : Fld) : Fld := x.up (0x20 * t)
def State.modeAct (s : State) (t : Nat) : Nat := s.fld (taskFld t F.BTL_TSTAT_MODE_ACT)
def mdStop : Nat := 0
def mdRun : Nat := 1
def mdHold : Nat := 2

/-- A new MODE waits for its instant (R291); the reserved code is discarded. -/
def modeWrite (t m : Nat) (s : State) : State :=
  if 3 ≤ m then s
  else (s.setTask t { s.task t with pend := some m }).setFld (taskFld t F.BTL_TCFG_MODE) m

/-- BTL_TCFG: CORE and WDG_N are refused unless the mode in effect is Stop (R292). -/
def tcfgWrite (t : Nat) (data : Word) (s : State) : State :=
  let off := R.BTL_TCFG + 0x20 * t
  let m := cfgBits data F.BTL_TCFG_MODE
  let keep := cfgBits data F.BTL_TCFG_CORE == s.fld (taskFld t F.BTL_TCFG_CORE) &&
    cfgBits data F.BTL_TCFG_WDG_N == s.fld (taskFld t F.BTL_TCFG_WDG_N)
  if m = 3 then s
  else
    let s :=
      if s.modeAct t = mdStop then
        (s.setFld (taskFld t F.BTL_TCFG_CORE) (cfgBits data F.BTL_TCFG_CORE)).setFld
          (taskFld t F.BTL_TCFG_WDG_N) (cfgBits data F.BTL_TCFG_WDG_N)
      else if keep then s else s.rejWrite off
    modeWrite t m s

/-- BTL_TCMD.DONE (R286): a running cycle ends. Its outputs wait for the next commit point; in Hold
and Stop they are discarded (Table 11.2). -/
def taskDone (t : Nat) (s : State) : State :=
  if s.flag (taskFld t F.BTL_TSTAT_BUSY) then
    let m := s.modeAct t
    if m = mdStop then s
    else
      let s := s.setFlag (taskFld t F.BTL_TSTAT_BUSY) false
      let took := (s.sweep - (s.task t).start).toNat
      let s := s.setFld (taskFld t F.BTL_TCNT_MAX_SW)
        (max (s.fld (taskFld t F.BTL_TCNT_MAX_SW)) (min 0xFFFF took))
      s.setTask t { s.task t with done := m == mdRun }
  else s

def execTaskDone (t : Fin 16) (s : State) : Host.Outcome State Fault Refusal := .next (taskDone t.val s)

def btlWrite (off : Nat) (data : Word) (s : State) : State :=
  if off = R.BTL_CTL then btlCtlWrite data s
  else if off = R.BTL_HALT then haltWrite data s
  else if 0x170100 ≤ off ∧ off < 0x170200 ∧ off % 0x20 = 0x14 then gdataWrite ((off - 0x170100) / 0x20) data s
  else if 0x171000 ≤ off ∧ off < 0x171200 then
    let t := (off - 0x171000) / 0x20
    let o := off % 0x20
    if o = 0 then tcfgWrite t data s
    else if o = 0x10 then (if data.getLsbD 0 then taskDone t s else s)
    else if (o = 4 ∨ o = 8 ∨ o = 0xC ∨ o = 0x1C) ∧ s.modeAct t ≠ mdStop then s.rejWrite off
    else s.plain off data
  else s.plain off data

/-! ### Host, Ethernet, PWM, module -/

def hstWrite (off : Nat) (data : Word) (s : State) : State :=
  if off = R.HST_DOORBELL then doorbell (data.setWidth 8) s
  else if off = R.HST_FWINT then fwint (cfgBits data F.HST_FWINT_VEC) s
  else if 0x180100 ≤ off ∧ off < 0x180180 ∧ off % 0x10 = 4 then
    let c := (off - 0x180100) / 0x10
    if (s.dma c).busy then ifSet data F.HST_DCMD_ABORT (dmaAbort c) s
    else ifSet data F.HST_DCMD_START (dmaStart c) s
  else s.plain off data

/-- ETH_CTL: both heads are 0 while EN is 0. -/
def ethCtlWrite (p : Bool) (data : Word) (s : State) : State :=
  let s := s.plain (R.ETH_CTL + 0x400 * portNo p) data
  if s.flag (ethFld p F.ETH_CTL_EN) then s
  else
    (s.setEthp (portNo p) { s.ethp (portNo p) with rxHead := 0, txHead := 0 }).setReg
      (R.ETH_HEAD + 0x400 * portNo p) 0

/-- ETH_RXPTR and ETH_TXPTR: TAIL at any time, SIZE only while EN is 0 (R411). -/
def ethPtrWrite (p : Bool) (off : Nat) (data : Word) (s : State) : State :=
  let size : Fld := ⟨off, 0, 12⟩
  let tail : Fld := ⟨off, 13, 12⟩
  if bitsOf data 0 12 < 2 then s
  else
    let s := s.setFld tail (bitsOf data 13 12)
    if bitsOf data 0 12 = s.fld size then s
    else if s.flag (ethFld p F.ETH_CTL_EN) then s.rejWrite off
    else s.setFld size (bitsOf data 0 12)

def ethWrite (off : Nat) (data : Word) (s : State) : State :=
  let p := decide (0x190400 ≤ off)
  let o := off % 0x400
  if 0x190800 ≤ off then s
  else if o = 0 then ethCtlWrite p data s
  else if o = 0xC ∨ o = 0x14 then
    (if s.flag (ethFld p F.ETH_CTL_EN) then s.rejWrite off else s.plain off data)
  else if o = 0x10 ∨ o = 0x18 then ethPtrWrite p off data s
  else s.plain off data

/-- A write of a channel's settings: one in the tick of a period start applies from the period start
after it, and period starts that have been reached come before it (R415). -/
def pwmChWrite (off : Nat) (data : Word) (s : State) : State :=
  let n := (off - 0x1A0100) / 0x10
  (pwmCatchUp n s).plain off data

/-- PWM_FLT written: a clear of FLT is ignored while PWM_FLT_N is low, and a channel on which the fault
input now acts goes to high impedance while it has been low for the filter time (R417). -/
def pwmFltWrite (data : Word) (s : State) : State :=
  let low := s.pwm.fltLow
  let s := s.plain R.PWM_FLT (if s.flag F.PWM_FLT_PIN then data else data &&& ~~~(maskOf F.PWM_FLT_FLT.lo 1))
  let en := s.fld F.PWM_FLT_FLT_EN
  if low then
    forN 12 (fun n s =>
      if en.testBit n then s.setPwmCh n { s.pwmCh n with hizFlt := true, fltOver := false } else s) s
  else if s.flag F.PWM_FLT_FLT then s
  else forN 12 (fun n s => s.setPwmCh n { s.pwmCh n with fltOver := (s.pwmCh n).hizFlt }) s

def pwmWrite (off : Nat) (data : Word) (s : State) : State :=
  if off = R.PWM_CTL then pwmEnable (pwmRefreeze (s.plain off data))
  else if off = R.PWM_FLT then pwmFltWrite data s
  else if 0x1A0100 ≤ off then pwmChWrite off data s
  else s.plain off data

def modWrite (off : Nat) (data : Word) (s : State) : State :=
  if off = R.MOD_CTL then
    ifSet data F.MOD_CTL_REBOOT reboot (ifSet data F.MOD_CTL_HOST_GO hostGo
      (ifSet data F.MOD_CTL_CONFIRM confirmBoot s))
  else if off = R.MOD_BOOT then bootWrite (s.plain off data)
  else if off = R.MOD_FCMD then
    ifSet data F.MOD_FCMD_PROG (flashCmd false) (ifSet data F.MOD_FCMD_ERASE (flashCmd true)
      (s.plain off data))
  else s.plain off data

/-! ### Every register -/

/-- The end of the assigned register blocks, and of the range an access to registers reaches. -/
def regEnd : Nat := 0x1C0000
def barRegEnd : Nat := 0x800000

/-- A write of a whole word at a BAR0 offset below the window (R8, R9, R28). -/
def regWrite (src : Src) (a : Nat) (data : Word) (s : State) : State :=
  let off := a / 4 * 4
  if regEnd ≤ off then s.unmapped off
  else if isHiOfPair off then stageHi off data s
  else if pairLo off then pairWrite off data s
  else if off < 0x10000 then s.plain off data
  else if off < 0x20000 then ffyWrite off data s
  else if off < 0x40000 then crkWrite off data s
  else if off < 0x80000 then swmWrite off data s
  else if off < 0xA0000 then hrnWrite off data s
  else if off < 0xB0000 then mdgWrite off data s
  else if off < 0xC0000 then lcwWrite off data s
  else if off < 0x100000 then dfyWrite off data s
  else if off < 0x120000 then hivWrite src off data s
  else if off < 0x130000 then mthWrite off data s
  else if off < 0x140000 then trmWrite off data s
  else if off < 0x150000 then twnWrite off data s
  else if off < 0x160000 then mtsWrite src off data s
  else if off < 0x170000 then ccdWrite off data s
  else if off < 0x180000 then btlWrite off data s
  else if off < 0x190000 then hstWrite off data s
  else if off < 0x1A0000 then ethWrite off data s
  else if off < 0x1B0000 then pwmWrite off data s
  else modWrite off data s

/-! ### Reading -/

/-- The value a register reads as, without what the read does: registers that follow the state are
formed here. -/
def State.view (s : State) (src : Src) (off : Nat) : Word :=
  if regEnd ≤ off then 0
  else if off = R.GCR_SVC then s.gcrSvc
  else if off = R.FFY_STAT then s.ffyStat
  else if off = R.FFY_NOW_LO then BitVec.ofNat 32 s.ns
  else if off = R.FFY_NOW_HI then BitVec.ofNat 32 (s.ns / 2 ^ 32)
  else if off = R.HRN_PVER then BitVec.ofNat 32 s.progVer
  else if off = R.HRN_PTAG then s.pairTag
  else if 0xC0000 ≤ off ∧ off < 0xCE000 ∧ off % 0x2000 = 4 then s.dfyPstat ((off - 0xC0000) / 0x2000)
  else if 0x100100 ≤ off ∧ off < 0x100180 ∧ off % 0x10 = 4 then hivCur ((off - 0x100100) / 0x10) s
  else if off = R.HIV_CUR_SELF then
    (match src with
    | .core n => hivCur n.val s
    | _ => 0)
  else if off = R.TWN_STAT then s.twnStat
  else if off = R.TWN_RET then s.twnRet
  else if off = R.MTS_STAT then s.mtsStat
  else if off = R.MTS_IN then s.mtsIn
  else if off = R.MOD_STAT then s.modStat
  else if R.MTS_BSMEM ≤ off ∧ off < 0x160000 then s.bsWord (off - R.MTS_BSMEM)
  else if off = R.MTS_CHK then s.mtsChk
  else if off = R.BTL_HALT then s.haltedWord
  else if 0x170100 ≤ off ∧ off < 0x170200 then
    let n := (off - 0x170100) / 0x20
    let o := off % 0x20
    if o = 4 then s.btlPc n else if o = 8 then (s.core n).cause else if o = 0xC then (s.core n).epc
    else if o = 0x14 then s.gdata n else s.reg off
  else if 0x171000 ≤ off ∧ off < 0x171200 ∧ off % 0x20 = 0x14 then
    let t := (off - 0x171000) / 0x20
    putBits (s.reg off) F.BTL_TSTAT_HELD.lo 1
      (if (s.core (s.fld (taskFld t F.BTL_TCFG_CORE))).halted then 1 else 0)
  else if off = R.PWM_STAT then s.pwmStat
  else s.reg off

/-- The _LO registers of every 64-bit pair (R11). -/
def readPairLo (off : Nat) : Bool :=
  pairLo off || off == R.FFY_NOW_LO || off == R.FFY_TXTS_LO || off == R.CRK_EPOCH_LO ||
    off == R.HIV_TFLAG_LO || (decide (0x10200 ≤ off) && decide (off < 0x10280) && off % 0x10 == 4)

/-- A read of _LO latches the matching _HI (R11). -/
def latchHi (off : Nat) (s : State) : State :=
  { s with hiLatch := tset (fun _ => none) (off + 4) (some (s.view .host (off + 4))) s.hiLatch }

/-- A read of a word at a BAR0 offset below the window: its value and what it does (R10). -/
def regRead (src : Src) (a : Nat) (s : State) : Word × State :=
  let off := a / 4 * 4
  if regEnd ≤ off then (0, s.unmapped off)
  else if off = R.FFY_TXTS_HDR then
    let t := txtsHdrRead s
    (t.reg off, t)
  else if 0xA0100 ≤ off ∧ off < 0xA0300 ∧ off % 0x20 = 0xC then mdgDataRead ((off - 0xA0100) / 0x20) s
  else if 0x100100 ≤ off ∧ off < 0x100180 ∧ off % 0x10 = 0 then hivTake ((off - 0x100100) / 0x10) s
  else if off = R.HIV_TAKE_SELF then
    (match src with
    | .core n => hivTake n.val s
    | _ => (0, s))
  else if off = R.CCD_LOG0 then
    let t := ccdLogRead s
    (t.reg off, t)
  else if readPairLo off then (s.view src off, latchHi off s)
  else
    match tget (fun _ => none) s.hiLatch off with
    | some v => (v, { s with hiLatch := tset (fun _ => none) off none s.hiLatch })
    | none => (s.view src off, s)

/-- The bytes that a read of memory with byte enables gives, by byte of the 8-byte word: none where the word is
returned marked as poisoned (R25, R403). -/
def State.wordRead (s : State) (a : Nat) (be : BitVec 8) : List (Option Byte) :=
  (maskBytes be).map (fun i => if s.poisoned a 8 then none else some (s.ld8 (a + i)))

/-- A host read of the window (R403): the bytes requested of one 8-byte word, with the checks of R25. The host
may read all of memory, the Hive regions among it (R299); beyond it a read gives 0 and is recorded. No row of
the opcode table runs it (DESIGN CHOICE: assumption 237). -/
def hostWindowRead (off : Nat) (be : BitVec 8) (s : State) : List (Option Byte) × State :=
  let a := s.winAddr off / 8 * 8
  if memEnd ≤ a then ((maskBytes be).map (fun _ => some 0), s.unmapped off)
  else
    let t := if be = 0 then s else s.checkRead a 8
    (t.wordRead a be, t)

/-- READ_LO: the host reads the _LO register of a pair. -/
def readLo (src : Src) (off : Nat) (s : State) : State :=
  if readPairLo off then
    let s := { s with hst := { s.hst with rdata := s.view src off } }
    latchHi off s
  else s

def execReadLo (src : Src) (off : BitVec 24) (s : State) : Host.Outcome State Fault Refusal :=
  .next (readLo src off.toNat s)

/-- UNMAPPED_ACCESS: the unassigned range, or the window beyond the memory (R28, R403). -/
def unmappedAccess (off : Nat) (write : Bool) (s : State) : State :=
  if (regEnd ≤ off ∧ off < barRegEnd) ∨ (barRegEnd ≤ off ∧ memEnd ≤ s.winAddr off) then
    let s := s.unmapped off
    if write then s else { s with hst := { s.hst with rdata := 0 } }
  else s

def execUnmappedAccess (off : BitVec 24) (write : Bool) (s : State) : Host.Outcome State Fault Refusal :=
  .next (unmappedAccess off.toNat write s)

end Sys2Proof.Machine
end

