-- ==== Sys2Proof/Machine/CoreMem.lean ====
section
/-!
DEFINITION. How the cores reach memory and registers: the address map and its rights (R255, R362),
the store buffer, its drain and forwarding (R264 to R269), and instruction fetch.
-/

namespace Sys2Proof.Machine

/-- The source a core's accesses come from. -/
def srcOf (n : Nat) : Src := if n = coreBs then .bs else .core (Fin.ofNat 8 n)

/-- The start of register space in a core's addresses. -/
def regSpace : Nat := 0x10000000
/-- The register an address names, where the map has one (Table 10.3). -/
def regOff (a : Nat) : Option Nat :=
  if regSpace ≤ a ∧ a < regSpace + barRegEnd then some (a - regSpace) else none

/-- The bits of a word's byte mask that an access of `sz` bytes inside the word selects. -/
def byteMask (a sz : Nat) : BitVec 4 := BitVec.ofNat 4 ((2 ^ sz - 1) * 2 ^ (a % 4))

/-! ### Writing memory in ECC words (R269) -/

/-- The bytes of a write that fall into the ECC word at `w`: their mask and the word's data. -/
def eccPart (w a : Nat) (bs : List Byte) : BitVec 8 × BitVec 64 :=
  let hit := (List.range 8).filter (fun i => decide (a ≤ w + i) && decide (w + i < a + bs.length))
  (BitVec.ofNat 8 ((hit.map (fun i => 2 ^ i)).foldl (· + ·) 0),
   BitVec.ofNat 64 ((hit.map (fun i => (bs.getD (w + i - a) 0).toNat * 256 ^ i)).foldl (· + ·) 0))

/-- Bytes written by a core, one ECC word after the other. -/
def State.eccBytes (s : State) (a : Nat) (bs : List Byte) (detail : Nat) : State :=
  forN ((a % 8 + bs.length + 7) / 8) (fun i s =>
    let w := a / 8 * 8 + 8 * i
    s.eccWrite w (eccPart w a bs).1 (eccPart w a bs).2 detail) s

/-! ### The store buffer -/

/-- Two entries that together cover one aligned 8-byte word (R269). -/
def SbEntry.merges (e f : SbEntry) : Bool :=
  decide (e.addr < regSpace) && e.mask == 0xF && f.mask == 0xF &&
    decide (e.addr / 8 = f.addr / 8) && e.addr != f.addr

/-- The entry's bytes in its ECC word, and their data. -/
def SbEntry.part (e : SbEntry) : BitVec 8 × BitVec 64 :=
  if e.addr % 8 = 0 then (e.mask.setWidth 8, e.data.setWidth 64)
  else (e.mask.setWidth 8 <<< 4, e.data.setWidth 64 <<< 32)

/-- An entry written to memory or to its register. -/
def drainEntry (n : Nat) (e : SbEntry) (s : State) : State :=
  match regOff e.addr with
  | some off => regWrite (srcOf n) off e.data s
  | none => s.eccWrite (e.addr / 8 * 8) e.part.1 e.part.2 n

/-- The oldest entry drains, and with it the next when the two form one ECC word (R264, R269). -/
def drainOne (n : Nat) (s : State) : State :=
  let c := s.core n
  match c.sb with
  | [] => s
  | [e] => drainEntry n e (s.setCore n { c with sb := [] })
  | e :: f :: r =>
    if e.merges f then
      let d := e.part.2 ||| f.part.2
      (s.setCore n { c with sb := r }).eccWrite (e.addr / 8 * 8) 0xFF d n
    else drainEntry n e (s.setCore n { c with sb := f :: r })

/-- The buffer drains as long as it holds an entry for which a test is true. -/
def drainWhile (n : Nat) (p : SbEntry → Bool) (s : State) : State :=
  forN 8 (fun _ s => if (s.core n).sb.any p then drainOne n s else s) s

/-- The whole buffer drains. -/
def drainAll (n : Nat) (s : State) : State := drainWhile n (fun _ => true) s

/-- The buffer of every core that has stopped drains, and a start that waited for that follows (R253).
A drain may stop a further core. -/
def drainStopped (s : State) : State :=
  forN 8 (fun _ s => forN 8 (fun n s => startDrained n
    (if !(s.core n).run && !(s.core n).sb.isEmpty then drainAll n s else s)) s) s

/-- Whether an entry holds a byte of an access inside one word, and whether it holds them all. -/
def SbEntry.overlaps (a sz : Nat) (e : SbEntry) : Bool :=
  e.addr == a / 4 * 4 && (e.mask &&& byteMask a sz) != 0
def SbEntry.holds (a sz : Nat) (e : SbEntry) : Bool := (byteMask a sz &&& ~~~e.mask) == 0

/-- A word's bytes from the one at address `a` on, as a load of `sz` bytes takes them. -/
def wordBytes (a sz : Nat) (w : Word) : Word := BitVec.ofNat 32 (bitsOf w (8 * (a % 4)) (8 * sz))

/-! ### BS's map (R362, R413) -/

/-- What an address of BS reaches. -/
inductive BsAt where
  | local
  | reg (off : Nat)
  | slot (a : Nat)
  | none
  deriving DecidableEq, Repr

def bsAt (a : Nat) : BsAt :=
  if a < 0x8000 then .local
  else if 0x10150000 ≤ a ∧ a < 0x10160000 then .reg (a - regSpace)
  else if 0x20000000 ≤ a ∧ a < 0x20001000 ∧
      (a % 0x800 < 0x200 ∨ (0x400 ≤ a % 0x800 ∧ a % 0x800 < 0x480)) then .slot (a - 0x20000000)
  else .none

/-- Whether BS may make an access of `sz` bytes; `word`: it is an LD.W or ST.W. -/
def bsMay (a : Nat) (word : Bool) : Bool :=
  match bsAt a with
  | .local => true
  | .slot _ => true
  | .reg _ => word
  | .none => false

/-- BS reads. -/
def bsLoad (a sz : Nat) (s : State) : Word × State :=
  match bsAt a with
  | .local => (wordBytes a sz (s.bsWord a), s)
  | .slot k => (BitVec.ofNat 32 (leNat ((List.range sz).map (fun i => s.slotByte (k + i)))), s)
  | .reg off => regRead .bs off s
  | .none => (0, s)

/-- BS writes; it has no store buffer. -/
def bsStore (a sz : Nat) (v : Word) (s : State) : State :=
  match bsAt a with
  | .local =>
    s.setBsWord a (putBits (s.bsWord a) (8 * (a % 4)) (8 * sz) (bitsOf v 0 (8 * sz)))
  | .slot k => forN sz (fun i s => s.setSlotByte (k + i) (v.extractLsb' (8 * i) 8)) s
  | .reg off => regWrite .bs off v s
  | .none => s

/-! ### Rights (R255) -/

/-- Whether a core may read here with an access of `sz` bytes; `word`: it is an LD.W. -/
def coreMayRead (n a : Nat) (word : Bool) : Bool :=
  if n = coreBs then bsMay a word else memReadable a || (word && (regOff a).isSome)
/-- Whether a core may write here. -/
def coreMayWrite (n a : Nat) (word : Bool) : Bool :=
  if n = coreBs then bsMay a word else memWritable a || (word && (regOff a).isSome)

/-! ### Loads and stores -/

/-- The bytes of a load as memory gives them: a poisoned word raises POISON_D. -/
def memLoad (n a sz : Nat) (s : State) : Option Word × State :=
  let s := s.checkRead a sz
  if s.poisoned a sz then (none, s.raise n exPoisonD (BitVec.ofNat 32 a))
  else (some (BitVec.ofNat 32 (s.rdN a sz)), s)

/-- A load of B0 to B7 from memory, forwarded from the store buffer where R265 says so. -/
def bufLoad (n a sz : Nat) (s : State) : Option Word × State :=
  match ((s.core n).sb.filter (SbEntry.overlaps a sz)).getLast? with
  | none => memLoad n a sz s
  | some e =>
    if e.holds a sz then (some (wordBytes a sz e.data), s)
    else memLoad n a sz (drainWhile n (SbEntry.overlaps a sz)
      (s.bump (F.BTL_STALL_FWD_STALL.up (0x20 * n)) 1))

/-- A load of `sz` bytes, zero-extended; none where it raised an exception. `word`: it is an LD.W. -/
def coreLoad (n a sz : Nat) (word : Bool) (s : State) : Option Word × State :=
  if a % sz ≠ 0 then (none, s.raise n exAlign (BitVec.ofNat 32 a))
  else if !(coreMayRead n a word) then (none, s.raise n exAccess (BitVec.ofNat 32 a))
  else if n = coreBs then ((bsLoad a sz s).1, (bsLoad a sz s).2)
  else
    match regOff a with
    | some off =>
      let r := regRead (srcOf n) off (drainAll n s)
      (some r.1, r.2)
    | none => bufLoad n a sz s

/-- The entry a store of `sz` bytes makes. -/
def storeEntry (a sz : Nat) (v : Word) : SbEntry :=
  { addr := a / 4 * 4, mask := byteMask a sz
    data := BitVec.ofNat 32 ((bitsOf v 0 (8 * sz)) * 256 ^ (a % 4)) }

/-- A store enters the buffer; with all 8 entries occupied it waits for one to drain (R264). -/
def enterStore (n : Nat) (e : SbEntry) (s : State) : State :=
  let s := if 8 ≤ (s.core n).sb.length then
      drainOne n (s.bump (F.BTL_STALL_SB_FULL.up (0x20 * n)) 1) else s
  s.setCore n { s.core n with sb := (s.core n).sb ++ [e] }

/-- A store of `sz` bytes, and whether it raised no exception. `word`: it is an ST.W. -/
def coreStore (n a sz : Nat) (word : Bool) (v : Word) (s : State) : Bool × State :=
  if a % sz ≠ 0 then (false, s.raise n exAlign (BitVec.ofNat 32 a))
  else if !(coreMayWrite n a word) then (false, s.raise n exAccess (BitVec.ofNat 32 a))
  else if n = coreBs then (true, bsStore a sz v s)
  else (true, enterStore n (storeEntry a sz v) s)

/-! ### Fetch -/

/-- Where a core may execute. -/
def mayExec (n pc : Nat) : Bool := decide (pc < (if n = coreBs then 0x8000 else 0x02000000))

/-- The words the instruction cache holds: 16 KiB (Table 10.1). -/
def icacheWords : Nat := 4096

/-- The instruction cache takes the word at the PC; of a full cache one word leaves, and which one is
free. -/
def fillCache (n : Nat) (s : State) : State :=
  let c := s.core n
  let full := decide (icacheWords ≤ c.icache.length)
  let old := if full then c.icache.eraseIdx (Config.freeEvict s.free % c.icache.length) else c.icache
  let s := s.setCore n { c with
    icache := tset (fun _ => none) c.pc.toNat (some (s.rd32 c.pc.toNat)) old }
  if full then s.draw else s

/-- The fetch of the instruction at the PC, and whether it raised no exception. -/
def fetch (n : Nat) (s : State) : Bool × State :=
  let pc := (s.core n).pc
  if !(mayExec n pc.toNat) then (false, s.raise n exAccess pc)
  else if n = coreBs ∨ (tget (fun _ => none) (s.core n).icache pc.toNat).isSome then (true, s)
  else
    let s := s.checkRead pc.toNat 4
    if s.poisoned pc.toNat 4 then (false, s.raise n exPoisonI 0) else (true, fillCache n s)

end Sys2Proof.Machine
end

