-- ==== Sys2Proof/Machine/Cyclic.lean ====
section
/-!
DEFINITION. Cyclic tasks (R283 to R298): cycle starts, image transfers, modes, overrun and watchdog.
-/

namespace Sys2Proof.Machine

/-! ### A task's settings and its image block (Table 11.1) -/

def State.taskCore (s : State) (t : Nat) : Nat := s.fld (taskFld t F.BTL_TCFG_CORE)
def State.taskBusy (s : State) (t : Nat) : Bool := s.flag (taskFld t F.BTL_TSTAT_BUSY)
/-- The bound core is in debug halt (R297). -/
def State.taskHeld (s : State) (t : Nat) : Bool := (s.core (s.taskCore t)).halted
/-- The image block's address. -/
def State.image (s : State) (t : Nat) : Nat := s.fld (taskFld t F.BTL_TIMG_ADDR) * 1024

/-- COUNTS as it stands, and the words that are transferred: at most 64 in and 32 out. -/
def State.nIn (s : State) (t : Nat) : Nat := bitsOf (s.rd32 (s.image t)) 0 7
def State.nOut (s : State) (t : Nat) : Nat := bitsOf (s.rd32 (s.image t)) 16 6
def State.inWords (s : State) (t : Nat) : Nat := min 64 (s.nIn t)
def State.outWords (s : State) (t : Nat) : Nat := min 32 (s.nOut t)

/-- Whether a cycle of a task is due at the commit point of sweep n (R284). -/
def State.cycleDue (s : State) (t : Nat) (n : Word) : Bool :=
  let per := max 1 (s.fld (taskFld t F.BTL_TPER_PER))
  ((n.toNat : Int) - s.fld (taskFld t F.BTL_TPH_PHASE)) % per == 0

/-! ### Transfers (R285, R287, R288) -/

/-- Whether a word may be copied from, or written to, an address of a list. -/
def srcOk (a : Nat) : Bool := a % 4 == 0 && coreMayRead 0 a true
def dstOk (a : Nat) : Bool := a % 4 == 0 && coreMayWrite 0 a true

/-- A word as a transfer reads it from memory; a poisoned word has no value. -/
def imageWord (a : Nat) (s : State) : Word × State :=
  let s := s.checkRead a 4
  if s.poisoned a 4 then
    (BitVec.ofNat 32 (leNat ((List.range 4).map (Config.freeByte s.free))), s.draw)
  else (s.rd32 a, s)

/-- A source word, from memory or from a register. -/
def readSource (a : Nat) (s : State) : Word × State :=
  match regOff a with
  | some off => regRead .host off s
  | none => imageWord a s

/-- A word written to a destination by the device, for a task's core. -/
def writeDest (n a : Nat) (v : Word) (s : State) : State :=
  match regOff a with
  | some off => regWrite .host off v s
  | none => s.eccBytes a (leBytes 4 v.toNat) n

/-- The input copy: COUNTS is read, then each word. -/
def copyInputs (t : Nat) (s : State) : State :=
  let b := s.image t
  let (k, s) := imageWord b s
  forN (min 64 (bitsOf k 0 7)) (fun i s =>
    let (a, s) := imageWord (b + 0x40 + 4 * i) s
    if srcOk a.toNat then
      let (v, s) := readSource a.toNat s
      writeDest (s.taskCore t) (b + 0x140 + 4 * i) v s
    else s) s

/-- The words at an offset of the image block written to the destinations, in list order, after a read of
COUNTS. -/
def writeOutputs (t ofs : Nat) (s : State) : State :=
  let b := s.image t
  let (k, s) := imageWord b s
  forN (min 32 (bitsOf k 16 6)) (fun j s =>
    let (a, s) := imageWord (b + 0x240 + 4 * j) s
    if dstOk a.toNat then
      let (v, s) := imageWord (b + ofs + 4 * j) s
      writeDest (s.taskCore t) a.toNat v s
    else s) s

def outputTransfer (t : Nat) (s : State) : State :=
  writeOutputs t 0x2C0 (s.setTask t { s.task t with done := false })
def safeImage (t : Nat) (s : State) : State := writeOutputs t 0x340 s

/-! ### Modes (R291 to R293) -/

/-- The code of the check that a change from Stop to Run fails, 0 when it passes (Table 11.5). -/
def State.runErr (s : State) (t : Nat) : Nat :=
  let b := s.image t
  let srcs := (List.range (s.inWords t)).map (fun i => (s.rd32 (b + 0x40 + 4 * i)).toNat)
  let dsts := (List.range (s.outWords t)).map (fun j => (s.rd32 (b + 0x240 + 4 * j)).toNat)
  if !(inProgram b 1024) then 3
  else if s.poisoned b 4 then 5
  else if 64 < s.nIn t ∨ 32 < s.nOut t then 1
  else if s.poisoned (b + 0x40) (4 * s.nIn t) || s.poisoned (b + 0x240) (4 * s.nOut t) then 5
  else if !(srcs.all srcOk && dsts.all dstOk) then 2
  else if !(s.flagBit F.BTL_CTL_RUN (s.taskCore t)) then 4
  else 0

/-- The reads of that check: COUNTS, and the lists where it is in order (R25). -/
def runReads (t : Nat) (s : State) : State :=
  let b := s.image t
  if !(inProgram b 1024) then s
  else
    let s := s.checkRead b 4
    if s.poisoned b 4 ∨ 64 < s.nIn t ∨ 32 < s.nOut t then s
    else (s.checkRead (b + 0x40) (4 * s.nIn t)).checkRead (b + 0x240) (4 * s.nOut t)

def State.setMode (s : State) (t m : Nat) : State := s.setFld (taskFld t F.BTL_TSTAT_MODE_ACT) m

/-- The safe image of a task that has entered Stop, unless it is HELD: then it stays owed, since the
outputs keep their values (R293, R297). -/
def safeOwed (t : Nat) (s : State) : State :=
  if (s.task t).safeDue && !(s.taskHeld t) then
    safeImage t (s.setTask t { s.task t with safeDue := false })
  else s

/-- A task is in Stop: a running cycle and its outputs are given up, and its safe image is owed. -/
def stopTask (t : Nat) (s : State) : State :=
  let s := (s.setMode t mdStop).setFlag (taskFld t F.BTL_TSTAT_BUSY) false
  s.setTask t { s.task t with done := false, safeDue := true }

/-- Entry to Stop, with the safe image. -/
def enterStop (t : Nat) (s : State) : State := safeOwed t (stopTask t s)

/-- A mode takes effect. -/
def takeMode (t : Nat) (m : Option Nat) (s : State) : State :=
  match m with
  | none => s
  | some m =>
    let was := s.modeAct t
    if m = was then s
    else if m = mdStop then enterStop t s
    else if was = mdStop ∧ m = mdRun then
      let s := runReads t s
      let e := s.runErr t
      let s := s.setFld (taskFld t F.BTL_TSTAT_ERR) e
      if e = 0 then s.setMode t mdRun else s
    else s.setMode t m

/-- The written mode of a task takes effect. -/
def applyMode (t : Nat) (s : State) : State :=
  takeMode t (s.task t).pend (if (s.task t).pend.isSome then s.setTask t { s.task t with pend := none } else s)

/-- While sweeps do not run, a mode takes effect at once, and an owed safe image is written (R291). A
safe image may write a mode in its turn. -/
def tasksSettle (s : State) : State :=
  if s.running || s.crk.commitDue.isSome then s
  else forN 16 (fun _ s => forN 16 (fun t s => applyMode t (safeOwed t s)) s) s

/-- What follows register writes in the same step: the store buffers of stopped cores drain (R253),
and modes take effect while no sweep runs. -/
def State.settled (s : State) : State := tasksSettle (drainStopped s)

/-! ### Overrun and watchdog (R294 to R296) -/

/-- WDG_N, with 0 acting as 1. -/
def State.wdgN (s : State) (t : Nat) : Nat := max 1 (s.fld (taskFld t F.BTL_TCFG_WDG_N))
def State.consec (s : State) (t : Nat) : Nat := s.fld (taskFld t F.BTL_TSTAT_CONSEC)

/-- A cycle start that finds the task busy. -/
def overrun (t : Nat) (s : State) : State :=
  let s := (s.bump (taskFld t F.BTL_TCNT_SKIP) 1).bump (taskFld t F.BTL_TSTAT_CONSEC) 1
  let s := (s.setFlag (taskFld t F.BTL_TSTAT_OVR) true).ipend (s.taskCore t) 5
  s.report 0x1C t

/-- The tasks that Stop takes when a core's watchdog expires. -/
def State.boundTasks (s : State) (n : Nat) : List Nat :=
  (List.range 16).filter (fun t => s.taskCore t == n && s.modeAct t != mdStop)

/-- The watchdog of a task expires: its core stops and drains, mode writes that wait for this instant are
discarded, and every task of the core in Run or Hold enters Stop (R295, steps 1 and 2, R296). Their safe
images follow once all of them have (step 3). -/
def expire (t : Nat) (s : State) : State :=
  let n := s.taskCore t
  forN 16 (fun u s =>
    if s.taskCore u == n then
      let s := s.setTask u { s.task u with pend := none }
      if s.modeAct u = mdStop then s else stopTask u s
    else s) (drainAll n (coreStop n s))

/-- An expired watchdog is told, once the safe images have been written (R295, step 4). -/
def wdgTold (t : Nat) (s : State) : State :=
  (s.setFlag (taskFld t F.BTL_TSTAT_WDG) true).report 0x1D t

/-- Whether an overrun has brought CONSEC to WDG_N: the cycle it found running still runs, and the bound
core is not HELD (R294, R295, R297). -/
def State.wdgDue (s : State) (t : Nat) : Bool :=
  s.modeAct t != mdStop && s.taskBusy t && !(s.taskHeld t) && decide (s.wdgN t ≤ s.consec t)

/-- CYC_WDG: the watchdog expires; its tasks enter Stop, and their safe images are written in ascending order. -/
def cycWdg (t : Nat) (s : State) : State :=
  if s.wdgDue t then
    s.logOrder (wdgTold t (forL (s.boundTasks (s.taskCore t)) safeOwed (expire t s)))
  else s

def execCycWdg (t : Fin 16) (s : State) : Host.Outcome State Fault Refusal := .next (cycWdg t.val s)

/-! ### At a commit point (R288) -/

/-- Whether a cycle of a task starts, or overruns, at the commit point of sweep n: none while RUN is 0. -/
def State.cycleNow (s : State) (t : Nat) (n : Word) : Bool :=
  s.running && s.modeAct t == mdRun && s.cycleDue t n && !(s.taskHeld t)

/-- Whether a cycle start of sweep n finds a task busy, in Run or by a mode that goes to Run here. -/
def State.overrunDue (s : State) (t : Nat) (n : Word) : Bool :=
  s.running && s.cycleDue t n && !(s.taskHeld t) && s.taskBusy t &&
    (s.modeAct t == mdRun || (s.modeAct t == mdHold && (s.task t).pend == some mdRun))

/-- The tasks whose cycle start of sweep n is an overrun, and those whose watchdog it makes expire. A task in
Hold whose Run is to take effect here is none of them where the watchdog of a task in Run of its core expires:
its write is then discarded (R296). -/
def State.overrunning (s : State) (n : Word) : List Nat := (List.range 16).filter (fun t => s.overrunDue t n)
def State.expiring (s : State) (n : Word) : List Nat :=
  let l := (s.overrunning n).filter (fun t => decide (s.wdgN t ≤ s.consec t + 1))
  let cores := (l.filter (fun t => s.modeAct t == mdRun)).map s.taskCore
  l.filter (fun t => s.modeAct t == mdRun || !(cores.contains (s.taskCore t)))

/-- Whether an overrun of a task counts where the watchdogs of `ends` expire: a mode that is to take effect here
and ends Run spares its task the overrun, one that leads to Run brings it, unless a watchdog of the core
expires: the mode write is then discarded, but for the one whose own overrun makes it expire (R296). -/
def State.overrunHit (s : State) (ends : List Nat) (t : Nat) : Bool :=
  let gone := (ends.map s.taskCore).contains (s.taskCore t)
  if s.modeAct t == mdRun then gone || (s.task t).pend.getD mdRun == mdRun else !gone || ends.contains t

/-- Overruns, and the watchdogs they make expire. -/
def overruns (n : Word) (s : State) : State :=
  let ends := s.expiring n
  forL ends expire (forL ((s.overrunning n).filter (s.overrunHit ends)) overrun s)

/-- Whether a task's outputs are transferred here (R287); entry to Stop discards outputs that wait. -/
def State.stopNow (s : State) (t : Nat) : Bool := (s.task t).pend == some mdStop && s.modeAct t != mdStop
def State.doneOut (s : State) (t : Nat) : Bool := (s.task t).done && !(s.stopNow t) && !(s.taskHeld t)
/-- Whether its safe image is written here. -/
def State.safeOut (s : State) (t : Nat) : Bool := ((s.task t).safeDue || s.stopNow t) && !(s.taskHeld t)

/-- A task's outputs, and the mode that was written before this commit point. -/
def taskOut (t : Nat) (out : Bool) (m : Option Nat) (s : State) : State :=
  let s := safeOwed t s
  takeMode t m (if out then outputTransfer t s else s)

/-- A cycle starts: the task is busy from here on (R286); input copy, CYC_SWEEP and CYC_TIME, event flag (R285). -/
def cycleStart (t : Nat) (n : Word) (s : State) : State :=
  let b := s.image t
  let s := (s.setFld (taskFld t F.BTL_TSTAT_CONSEC) 0).setFlag (taskFld t F.BTL_TSTAT_BUSY) true
  let s := copyInputs t (s.setTask t { s.task t with start := n, done := false })
  let s := writeDest (s.taskCore t) (b + 8) n s
  let s := writeDest (s.taskCore t) (b + 0xC) s.shortTime s
  hivSetFlag (s.fld (taskFld t F.BTL_THIV_HTASK)) (s.fld (taskFld t F.BTL_THIV_FLAG)) s

/-- Whether a task's input copy is due. -/
def State.inDue (s : State) (t : Nat) (n : Word) : Bool := s.cycleNow t n && !(s.taskBusy t)

/-- SPLIT: the transfers of one commit point, each at 40 ns and 4 ns a word, run on past the next admission
point, where one follows (R288, R289) (DEDUCED: assumption 187). -/
def splits (outs ins : List Nat) (s : State) : State :=
  let past := fun (e : Nat) => match s.crk.nextAdm with
    | none => false
    | some a => decide ((s.comingSweep a).2 < s.now + e * psNs)
  let todo := outs.map (fun t => (t, s.outWords t)) ++ ins.map (fun t => (t, s.inWords t))
  (todo.foldl (fun (acc : Nat × State) (x : Nat × Nat) =>
    let e := acc.1 + 40 + 4 * x.2
    (e, if past e then acc.2.setFlag (taskFld x.1 F.BTL_TSTAT_SPLIT) true else acc.2)) (0, s)).2

/-- What the cyclic tasks do at the commit point of sweep n: the modes and the outputs of before it, in
ascending task order, the watchdogs that have expired, then the input copies, of tasks that the commit point
did not find busy (R294). A mode that a transfer writes waits for the next (R291), and so do the outputs of a
cycle whose DONE it writes (R287). -/
def tasksCommit (n : Word) (s : State) : State :=
  let ends := s.expiring n
  let free := (List.range 16).filter (fun t => !(s.taskBusy t))
  let s := overruns n s
  let outs := (List.range 16).filter (fun t => s.doneOut t || s.safeOut t)
  let work := (List.range 16).map (fun t => (t, s.doneOut t, (s.task t).pend))
  let s := forN 16 (fun t s => if (s.task t).pend.isSome then s.setTask t { s.task t with pend := none } else s) s
  let s := forL ends wdgTold (forL work (fun x s => taskOut x.1 x.2.1 x.2.2 s) s)
  let ins := free.filter (fun t => s.inDue t n)
  splits outs ins (forL ins (fun t s => cycleStart t n s) s)

/-! ### The commands of this unit -/

/-- SWEEPS_STOP: once no sweep runs, modes that wait take effect (R291). -/
def execSweepsStop (src : Src) (s : State) : Host.Outcome State Fault Refusal :=
  match src with
  | _ => .next (if s.running then tasksSettle (sweepsStop s) else s)

/-- TASK_RUN, TASK_HOLD, TASK_STOP: MODE is written. -/
def execTaskRun (t : Fin 16) (s : State) : Host.Outcome State Fault Refusal :=
  .next (modeWrite t.val mdRun s).settled
def execTaskHold (t : Fin 16) (s : State) : Host.Outcome State Fault Refusal :=
  .next (modeWrite t.val mdHold s).settled
def execTaskStop (t : Fin 16) (s : State) : Host.Outcome State Fault Refusal :=
  .next (modeWrite t.val mdStop s).settled

end Sys2Proof.Machine
end

