-- ==== Sys2Proof/Machine/Scalar.lean ====
section
/-!
DEFINITION. The scalar instructions of QIS, each as one whole step of a core (R252 to R282, Tables
10.5 to 10.8), and the control of the cores (R253, R264, R282, R311).
-/

namespace Sys2Proof.Machine

/-! ### One instruction -/

/-- The core is at an instruction boundary and executes. -/
def CoreSt.ready (c : CoreSt) : Bool := c.live && !c.haltReq && c.wait == Wait.none

/-- An instruction of core n: what it does, once its fetch has raised no exception. -/
def scalar (n : Nat) (f : State → State) (s : State) : State :=
  if (s.core n).ready then
    let r := fetch n s
    (if r.1 then f r.2 else r.2).settled
  else s

/-- A general register of a core. -/
def State.g (s : State) (n r : Nat) : Word := (s.core n).greg r

/-- The instruction that core n's own program has next, none where that is ILLEGAL: the word at its PC, as the cache or memory holds it,
read by Tables 10.4 to 10.7 (R252, R256). BS executes from its own memory (R278). -/
def State.nextInstr (s : State) (n : AnyCore) : Option Instr :=
  let a := (s.core n).pc.toNat
  scalarDecode n (if n.val = coreBs then s.bsWord a
    else (tget (fun _ => none) (s.core n).icache a).getD (s.rd32 a))

/-- The instruction ends with a result, and the next one follows. -/
def State.retire (s : State) (n rd : Nat) (v : Word) : State :=
  s.setCore n ((s.core n).setG rd v).advance

/-- The instruction ends without a result. -/
def State.pass (s : State) (n : Nat) : State := s.setCore n (s.core n).advance

/-- The instruction ends with a jump; the link register takes the next instruction's address. -/
def State.jump (s : State) (n rd : Nat) (target : Word) : State :=
  let c := s.core n
  s.setCore n { c.setG rd (c.pc + 4) with pc := target }

/-- An encoding that a core does not execute (Table 10.9). -/
def State.illegal (s : State) (n : Nat) : State := s.raise n exIllegal 0

/-- A result with its saturation (R258). -/
def State.retireSat (s : State) (n rd : Nat) (r : Word × Bool) : State :=
  let s := s.retire n rd r.1
  if r.2 then s.setCore n ((s.core n).setSt stQSAT true) else s

def immOp (n rd rs1 : Nat) (f : Word → Word) (s : State) : State :=
  scalar n (fun s => s.retire n rd (f (s.g n rs1))) s
def aluOp (n rd rs1 rs2 : Nat) (f : Word → Word → Word) (s : State) : State :=
  scalar n (fun s => s.retire n rd (f (s.g n rs1) (s.g n rs2))) s
def satOp (n rd rs1 rs2 : Nat) (f : Word → Word → Word × Bool) (s : State) : State :=
  scalar n (fun s => s.retireSat n rd (f (s.g n rs1) (s.g n rs2))) s
/-- A shift by SH: above 31 it is illegal. -/
def shiftOp (n rd rs1 sh : Nat) (f : Word → Nat → Word) (s : State) : State :=
  scalar n (fun s => if 31 < sh then s.illegal n else s.retire n rd (f (s.g n rs1) sh)) s
/-- A branch (Table 10.5). -/
def branch (n rs1 rs2 : Nat) (off : BitVec 16) (f : Word → Word → Bool) (s : State) : State :=
  scalar n (fun s =>
    if f (s.g n rs1) (s.g n rs2) then s.jump n 0 ((s.core n).pc + offI off) else s.pass n) s

/-! ### Immediate instructions, jumps and branches -/

def execAddk (n : AnyCore) (rd rs1 : GReg) (imm : BitVec 16) (s : State) :
    Host.Outcome State Fault Refusal := .next (immOp n rd rs1 (fun a => a + immS imm) s)
def execLtk (n : AnyCore) (rd rs1 : GReg) (imm : BitVec 16) (s : State) :
    Host.Outcome State Fault Refusal := .next (immOp n rd rs1 (fun a => opLt a (immS imm)) s)
def execLtku (n : AnyCore) (rd rs1 : GReg) (imm : BitVec 16) (s : State) :
    Host.Outcome State Fault Refusal := .next (immOp n rd rs1 (fun a => opLtu a (immS imm)) s)
def execAndk (n : AnyCore) (rd rs1 : GReg) (imm : BitVec 16) (s : State) :
    Host.Outcome State Fault Refusal := .next (immOp n rd rs1 (fun a => a &&& immZ imm) s)
def execOrk (n : AnyCore) (rd rs1 : GReg) (imm : BitVec 16) (s : State) :
    Host.Outcome State Fault Refusal := .next (immOp n rd rs1 (fun a => a ||| immZ imm) s)
def execXork (n : AnyCore) (rd rs1 : GReg) (imm : BitVec 16) (s : State) :
    Host.Outcome State Fault Refusal := .next (immOp n rd rs1 (fun a => a ^^^ immZ imm) s)
def execHik (n : AnyCore) (rd rs1 : GReg) (imm : BitVec 16) (s : State) :
    Host.Outcome State Fault Refusal := .next (immOp n rd rs1 (fun a => opHik a imm) s)

/-- PCREL -/
def execPcrel (n : AnyCore) (rd : GReg) (imm : BitVec 21) (s : State) :
    Host.Outcome State Fault Refusal :=
  .next (scalar n (fun s => s.retire n rd ((s.core n).pc + offL imm)) s)
/-- CALL -/
def execCall (n : AnyCore) (rd : GReg) (imm : BitVec 21) (s : State) :
    Host.Outcome State Fault Refusal :=
  .next (scalar n (fun s => s.jump n rd ((s.core n).pc + offL imm)) s)

/-- JMPR: a misaligned target raises ALIGN. -/
def jmpr (n rd rs1 : Nat) (imm : BitVec 16) (s : State) : State :=
  let t := s.g n rs1 + immS imm
  if t.toNat % 4 ≠ 0 then s.raise n exAlign t else s.jump n rd t

def execJmpr (n : AnyCore) (rd rs1 : GReg) (imm : BitVec 16) (s : State) :
    Host.Outcome State Fault Refusal := .next (scalar n (jmpr n rd rs1 imm) s)

def execBrEq (n : AnyCore) (rs1 rs2 : GReg) (off : BitVec 16) (s : State) :
    Host.Outcome State Fault Refusal := .next (branch n rs1 rs2 off (fun a b => a == b) s)
def execBrNe (n : AnyCore) (rs1 rs2 : GReg) (off : BitVec 16) (s : State) :
    Host.Outcome State Fault Refusal := .next (branch n rs1 rs2 off (fun a b => a != b) s)
def execBrLt (n : AnyCore) (rs1 rs2 : GReg) (off : BitVec 16) (s : State) :
    Host.Outcome State Fault Refusal := .next (branch n rs1 rs2 off (fun a b => a.slt b) s)
def execBrGe (n : AnyCore) (rs1 rs2 : GReg) (off : BitVec 16) (s : State) :
    Host.Outcome State Fault Refusal := .next (branch n rs1 rs2 off (fun a b => !(a.slt b)) s)
def execBrLtu (n : AnyCore) (rs1 rs2 : GReg) (off : BitVec 16) (s : State) :
    Host.Outcome State Fault Refusal := .next (branch n rs1 rs2 off (fun a b => a.ult b) s)
def execBrGeu (n : AnyCore) (rs1 rs2 : GReg) (off : BitVec 16) (s : State) :
    Host.Outcome State Fault Refusal := .next (branch n rs1 rs2 off (fun a b => !(a.ult b)) s)

/-! ### Loads and stores -/

/-- A load's value, sign-extended from `w` bits. -/
def extS (w : Nat) (x : Word) : Word := BitVec.ofInt 32 (BitVec.ofNat w x.toNat).toInt

/-- A load of `sz` bytes into rd; `word`: it is LD.W, which alone may reach registers. -/
def loadOp (n rd rs1 sz : Nat) (imm : BitVec 16) (word : Bool) (f : Word → Word) (s : State) : State :=
  scalar n (fun s =>
    let r := coreLoad n (s.g n rs1 + immS imm).toNat sz word s
    match r.1 with
    | none => r.2
    | some v => r.2.retire n rd (f v)) s

/-- A store of `sz` bytes of rs2; `word`: it is ST.W. -/
def storeOp (n rs1 rs2 sz : Nat) (off : BitVec 16) (word : Bool) (s : State) : State :=
  scalar n (fun s =>
    let r := coreStore n (s.g n rs1 + immS off).toNat sz word (s.g n rs2) s
    if r.1 then r.2.pass n else r.2) s

def execLdB (n : AnyCore) (rd rs1 : GReg) (imm : BitVec 16) (s : State) :
    Host.Outcome State Fault Refusal := .next (loadOp n rd rs1 1 imm false (extS 8) s)
def execLdBu (n : AnyCore) (rd rs1 : GReg) (imm : BitVec 16) (s : State) :
    Host.Outcome State Fault Refusal := .next (loadOp n rd rs1 1 imm false id s)
def execLdH (n : AnyCore) (rd rs1 : GReg) (imm : BitVec 16) (s : State) :
    Host.Outcome State Fault Refusal := .next (loadOp n rd rs1 2 imm false (extS 16) s)
def execLdHu (n : AnyCore) (rd rs1 : GReg) (imm : BitVec 16) (s : State) :
    Host.Outcome State Fault Refusal := .next (loadOp n rd rs1 2 imm false id s)
def execLdW (n : AnyCore) (rd rs1 : GReg) (imm : BitVec 16) (s : State) :
    Host.Outcome State Fault Refusal := .next (loadOp n rd rs1 4 imm true id s)
def execStB (n : AnyCore) (rs1 rs2 : GReg) (off : BitVec 16) (s : State) :
    Host.Outcome State Fault Refusal := .next (storeOp n rs1 rs2 1 off false s)
def execStH (n : AnyCore) (rs1 rs2 : GReg) (off : BitVec 16) (s : State) :
    Host.Outcome State Fault Refusal := .next (storeOp n rs1 rs2 2 off false s)
def execStW (n : AnyCore) (rs1 rs2 : GReg) (off : BitVec 16) (s : State) :
    Host.Outcome State Fault Refusal := .next (storeOp n rs1 rs2 4 off true s)

/-- The classes that BS does not execute (Table 10.12). -/
def notBs (n : Nat) (f : State → State) (s : State) : State :=
  scalar n (fun s => if n = coreBs then s.illegal n else f s) s

/-- LD.R (R268): the reservation is on the word's address. -/
def ldr (n rd rs1 : Nat) (imm : BitVec 16) (s : State) : State :=
  let a := (s.g n rs1 + immS imm).toNat
  let r := coreLoad n a 4 false s
  match r.1 with
  | none => r.2
  | some v => (r.2.setCore n { r.2.core n with resv := some a }).retire n rd v

def execLdR (n : AnyCore) (rd rs1 : GReg) (imm : BitVec 16) (s : State) :
    Host.Outcome State Fault Refusal := .next (notBs n (ldr n rd rs1 imm) s)

/-- ST.C (R268): it stores directly to memory, after the buffer has drained (R267). -/
def stc (n rd rs1 rs2 : Nat) (s : State) : State :=
  let a := (s.g n rs1).toNat
  if a % 4 ≠ 0 then s.raise n exAlign (s.g n rs1)
  else if !(memWritable a) then s.raise n exAccess (s.g n rs1)
  else
    let v := s.g n rs2
    let s := drainAll n s
    let hold := (s.core n).resv == some a
    let s := if hold then s.eccBytes a (leBytes 4 v.toNat) n else s
    (s.setCore n { s.core n with resv := none }).retire n rd (if hold then 0 else 1)

def execStC (n : AnyCore) (rd rs1 rs2 : GReg) (s : State) : Host.Outcome State Fault Refusal :=
  .next (notBs n (stc n rd rs1 rs2) s)

/-! ### ALU functions (Table 10.6) -/

def execAdd (n : AnyCore) (rd rs1 rs2 : GReg) (s : State) : Host.Outcome State Fault Refusal :=
  .next (aluOp n rd rs1 rs2 (fun a b => a + b) s)
def execSub (n : AnyCore) (rd rs1 rs2 : GReg) (s : State) : Host.Outcome State Fault Refusal :=
  .next (aluOp n rd rs1 rs2 (fun a b => a - b) s)
def execAnd (n : AnyCore) (rd rs1 rs2 : GReg) (s : State) : Host.Outcome State Fault Refusal :=
  .next (aluOp n rd rs1 rs2 (fun a b => a &&& b) s)
def execOr (n : AnyCore) (rd rs1 rs2 : GReg) (s : State) : Host.Outcome State Fault Refusal :=
  .next (aluOp n rd rs1 rs2 (fun a b => a ||| b) s)
def execXor (n : AnyCore) (rd rs1 rs2 : GReg) (s : State) : Host.Outcome State Fault Refusal :=
  .next (aluOp n rd rs1 rs2 (fun a b => a ^^^ b) s)
def execShl (n : AnyCore) (rd rs1 rs2 : GReg) (s : State) : Host.Outcome State Fault Refusal :=
  .next (aluOp n rd rs1 rs2 opShl s)
def execShr (n : AnyCore) (rd rs1 rs2 : GReg) (s : State) : Host.Outcome State Fault Refusal :=
  .next (aluOp n rd rs1 rs2 opShr s)
def execSar (n : AnyCore) (rd rs1 rs2 : GReg) (s : State) : Host.Outcome State Fault Refusal :=
  .next (aluOp n rd rs1 rs2 opSar s)
def execShlk (n : AnyCore) (rd rs1 : GReg) (sh : Fin 64) (s : State) :
    Host.Outcome State Fault Refusal := .next (shiftOp n rd rs1 sh (fun a k => a <<< k) s)
def execShrk (n : AnyCore) (rd rs1 : GReg) (sh : Fin 64) (s : State) :
    Host.Outcome State Fault Refusal := .next (shiftOp n rd rs1 sh (fun a k => a >>> k) s)
def execSark (n : AnyCore) (rd rs1 : GReg) (sh : Fin 64) (s : State) :
    Host.Outcome State Fault Refusal := .next (shiftOp n rd rs1 sh (fun a k => a.sshiftRight k) s)
def execLt (n : AnyCore) (rd rs1 rs2 : GReg) (s : State) : Host.Outcome State Fault Refusal :=
  .next (aluOp n rd rs1 rs2 opLt s)
def execLtu (n : AnyCore) (rd rs1 rs2 : GReg) (s : State) : Host.Outcome State Fault Refusal :=
  .next (aluOp n rd rs1 rs2 opLtu s)
def execMin (n : AnyCore) (rd rs1 rs2 : GReg) (s : State) : Host.Outcome State Fault Refusal :=
  .next (aluOp n rd rs1 rs2 opMin s)
def execMax (n : AnyCore) (rd rs1 rs2 : GReg) (s : State) : Host.Outcome State Fault Refusal :=
  .next (aluOp n rd rs1 rs2 opMax s)
def execClz (n : AnyCore) (rd rs1 : GReg) (s : State) : Host.Outcome State Fault Refusal :=
  .next (immOp n rd rs1 opClz s)
def execAdds (n : AnyCore) (rd rs1 rs2 : GReg) (s : State) : Host.Outcome State Fault Refusal :=
  .next (satOp n rd rs1 rs2 opAdds s)
def execSubs (n : AnyCore) (rd rs1 rs2 : GReg) (s : State) : Host.Outcome State Fault Refusal :=
  .next (satOp n rd rs1 rs2 opSubs s)
def execMul (n : AnyCore) (rd rs1 rs2 : GReg) (s : State) : Host.Outcome State Fault Refusal :=
  .next (aluOp n rd rs1 rs2 (fun a b => a * b) s)
def execMulhs (n : AnyCore) (rd rs1 rs2 : GReg) (s : State) : Host.Outcome State Fault Refusal :=
  .next (aluOp n rd rs1 rs2 opMulhs s)
def execMulhu (n : AnyCore) (rd rs1 rs2 : GReg) (s : State) : Host.Outcome State Fault Refusal :=
  .next (aluOp n rd rs1 rs2 opMulhu s)

/-- MULQ: SH 63 is outside what the function takes. -/
def mulq (n rd rs1 rs2 sh : Nat) (s : State) : State :=
  if 62 < sh then s.illegal n else s.retireSat n rd (opMulq (s.g n rs1) (s.g n rs2) sh)
def execMulq (n : AnyCore) (rd rs1 rs2 : GReg) (sh : Fin 64) (s : State) :
    Host.Outcome State Fault Refusal := .next (scalar n (mulq n rd rs1 rs2 sh) s)

/-- SAT: SH above 30 is outside what the function takes. -/
def satInstr (n rd rs1 sh : Nat) (s : State) : State :=
  if 30 < sh then s.illegal n else s.retireSat n rd (opSat (s.g n rs1) sh)
def execSat (n : AnyCore) (rd rs1 : GReg) (sh : Fin 64) (s : State) :
    Host.Outcome State Fault Refusal := .next (scalar n (satInstr n rd rs1 sh) s)

def execAbs (n : AnyCore) (rd rs1 : GReg) (s : State) : Host.Outcome State Fault Refusal :=
  .next (satOp n rd rs1 0 (fun a _ => opAbs a) s)
def execDivs (n : AnyCore) (rd rs1 rs2 : GReg) (s : State) : Host.Outcome State Fault Refusal :=
  .next (satOp n rd rs1 rs2 opDivs s)
def execDivu (n : AnyCore) (rd rs1 rs2 : GReg) (s : State) : Host.Outcome State Fault Refusal :=
  .next (satOp n rd rs1 rs2 opDivu s)
def execMods (n : AnyCore) (rd rs1 rs2 : GReg) (s : State) : Host.Outcome State Fault Refusal :=
  .next (satOp n rd rs1 rs2 opMods s)
def execModu (n : AnyCore) (rd rs1 rs2 : GReg) (s : State) : Host.Outcome State Fault Refusal :=
  .next (satOp n rd rs1 rs2 opModu s)

/-! ### System instructions -/

def execFence (n : AnyCore) (s : State) : Host.Outcome State Fault Refusal :=
  .next (scalar n (fun s => (drainAll n s).pass n) s)

def ifence (n : Nat) (s : State) : State :=
  let s := drainAll n s
  (s.setCore n { s.core n with icache := [] }).pass n
def execIfence (n : AnyCore) (s : State) : Host.Outcome State Fault Refusal :=
  .next (scalar n (ifence n) s)

/-- RETX (R261) -/
def CoreSt.retx (c : CoreSt) : CoreSt :=
  let c := { c with pc := c.epc &&& 0xFFFFFFFC, resv := none }
  (c.setSt stIE (c.st stPIE)).setSt stXACT false
def execRetx (n : AnyCore) (s : State) : Host.Outcome State Fault Refusal :=
  .next (scalar n (fun s => s.setCore n (s.core n).retx) s)

def execTrap (n : AnyCore) (sh : Fin 64) (s : State) : Host.Outcome State Fault Refusal :=
  .next (scalar n (fun s => s.raise n exTrap (BitVec.ofNat 32 sh)) s)

/-- WFI -/
def wfi (n : Nat) (s : State) : State :=
  if (s.core n).intrs ≠ 0 then s.pass n else s.setCore n { s.core n with wait := .wfi }
def execWfi (n : AnyCore) (s : State) : Host.Outcome State Fault Refusal := .next (scalar n (wfi n) s)

/-- A system register as MFS reads it; none for an unlisted number (Table 10.2). -/
def CoreSt.sysReg (c : CoreSt) (n : Nat) : Nat → Option Word
  | 0 => some (c.status &&& 0xF)
  | 1 => some c.epc
  | 2 => some c.cause
  | 3 => some c.eval
  | 4 => some c.xbase
  | 5 => some c.ien
  | 6 => some c.ipend
  | 7 => some (BitVec.ofNat 32 n)
  | 8 => some c.scratch
  | _ => none

/-- A system register written by MTS; a read-only one keeps its value. Hive sets IPEND bit 0 again
while the core holds an offer. -/
def CoreSt.setSysReg (c : CoreSt) (r : Nat) (v : Word) (offer : Bool) : Option CoreSt :=
  match r with
  | 0 => some { c with status := v &&& 0xF }
  | 1 => some { c with epc := v }
  | 2 => some c
  | 3 => some c
  | 4 => some { c with xbase := v &&& 0xFFFFFF00 }
  | 5 => some { c with ien := v &&& 0xFF }
  | 6 => some { c with ipend := (c.ipend &&& ~~~v) ||| (if offer then 1 else 0) }
  | 7 => some c
  | 8 => some { c with scratch := v }
  | _ => none

/-- MFS -/
def mfs (n rd r : Nat) (s : State) : State :=
  match (s.core n).sysReg n r with
  | none => s.illegal n
  | some v => s.retire n rd v
def execMfs (n : AnyCore) (rd : GReg) (sh : Fin 64) (s : State) : Host.Outcome State Fault Refusal :=
  .next (scalar n (mfs n rd sh) s)

/-- MTS -/
def mts (n rs1 r : Nat) (s : State) : State :=
  match (s.core n).setSysReg r (s.g n rs1) (s.hcore n).offer.isSome with
  | none => s.illegal n
  | some c => (s.setCore n c).pass n
def execMts (n : AnyCore) (rs1 : GReg) (sh : Fin 64) (s : State) : Host.Outcome State Fault Refusal :=
  .next (scalar n (mts n rs1 sh) s)

/-- SIGNAL -/
def execSignal (n : AnyCore) (rs1 : GReg) (s : State) : Host.Outcome State Fault Refusal :=
  .next (notBs n (fun s => (s.ipendAll (s.g n rs1).toNat 3).pass n) s)

/-- A core enters debug halt, with its store buffer drained (R267, R282). -/
def debugHalt (n : Nat) (s : State) : State :=
  let s := drainAll n s
  pwmRefreeze (s.setCore n { s.core n with halted := true, haltReq := false, wait := .none })

/-- BRK (R282) -/
def brk (n : Nat) (s : State) : State :=
  if s.flag F.BTL_CTL_DBG_EN ∧ n ≠ coreBs then debugHalt n (s.pass n) else s.raise n exBrk 0
def execBrk (n : AnyCore) (s : State) : Host.Outcome State Fault Refusal := .next (scalar n (brk n) s)

/-- ILLEGAL: an encoding of no instruction, or of one outside the core's subset. -/
def execIllegal (n : AnyCore) (s : State) : Host.Outcome State Fault Refusal :=
  .next (scalar n (fun s => s.illegal n) s)

/-! ### Sweep instructions (R274 to R277) -/

def waitsweep (n rd sh : Nat) (s : State) : State :=
  if 1 < sh then s.illegal n else s.setCore n { s.core n with wait := .sweep rd (sh == 1) }
def execWaitsweep (n : AnyCore) (rd : GReg) (sh : Fin 64) (s : State) :
    Host.Outcome State Fault Refusal := .next (notBs n (waitsweep n rd sh) s)

/-- The first sweep whose admission point lies after this instant (R276). -/
def State.nextSweep (s : State) : Word :=
  match s.crk.nextAdm with
  | none => BitVec.ofNat 32 s.crk.nextNum
  | some a =>
    BitVec.ofNat 32 ((s.comingSweep a).1 + (if (s.comingSweep a).2 = s.now then 1 else 0))

def commitInstr (n rd sh : Nat) (s : State) : State :=
  if 1 < sh then s.illegal n
  else
    let s := drainAll n s
    if !s.running then s.retire n rd 0xFFFFFFFF
    else if sh = 0 then s.retire n rd s.nextSweep
    else s.setCore n { s.core n with wait := .commit rd s.nextSweep }
def execCommit (n : AnyCore) (rd : GReg) (sh : Fin 64) (s : State) :
    Host.Outcome State Fault Refusal := .next (notBs n (commitInstr n rd sh) s)

def tstamp (n rd sh : Nat) (s : State) : State :=
  if 1 < sh ∨ (sh = 1 ∧ rd % 2 = 1) then s.illegal n
  else
    let t := s.retire n rd s.shortTime
    if sh = 1 then t.setCore n ((t.core n).setG (rd + 1) (BitVec.ofNat 32 (s.ns / 2 ^ 32))) else t
def execTstamp (n : AnyCore) (rd : GReg) (sh : Fin 64) (s : State) :
    Host.Outcome State Fault Refusal := .next (notBs n (tstamp n rd sh) s)

/-! ### Block instructions (R270 to R273): one element a step -/

/-- The register rule of R270. -/
def blockRegs (rd rs1 rs2 : Nat) : Bool :=
  rd != 0 && rs1 != 0 && rs2 != 0 && rd != rs1 && rd != rs2 && rs1 != rs2

/-- A block instruction with its register rule, its drain (R267) and a count of 0. -/
def block (n rd rs1 rs2 : Nat) (ok : Bool) (f : State → State) (s : State) : State :=
  notBs n (fun s =>
    if !(ok && blockRegs rd rs1 rs2) then s.illegal n
    else
      let s := drainAll n s
      if s.g n rs2 = 0 then s.pass n else f s) s

/-- An element done: the instruction stays in progress while its count is not 0. -/
def blockStep (n rs2 : Nat) (s : State) : State :=
  if s.g n rs2 = 0 then s.pass n else s

def State.setGs (s : State) (n : Nat) (l : List (Nat × Word)) : State :=
  s.setCore n (l.foldl (fun c x => c.setG x.1 x.2) (s.core n))

/-- An element's read: its rights, and a poisoned word. -/
def blockRead (n a k : Nat) (f : State → State) (s : State) : State :=
  if !(rangeReadable a k) then s.raise n exAccess (BitVec.ofNat 32 a)
  else
    let s := s.checkRead a k
    if s.poisoned a k then s.raise n exPoisonD (BitVec.ofNat 32 a) else f s

/-- One element of BMOV. -/
def bmov (n rd rs1 rs2 : Nat) (s : State) : State :=
  let d := s.g n rd
  let a := s.g n rs1
  let k := s.g n rs2
  if d.toNat % 8 ≠ 0 then s.raise n exAlign d
  else if a.toNat % 8 ≠ 0 then s.raise n exAlign a
  else if k.toNat % 8 ≠ 0 then s.raise n exAlign 0
  else if !(rangeWritable d.toNat 8) then s.raise n exAccess d
  else
    blockRead n a.toNat 8 (fun s =>
      let s := s.eccBytes d.toNat (s.rdBytes a.toNat 8) n
      blockStep n rs2 (s.setGs n [(rd, d + 8), (rs1, a + 8), (rs2, k - 8)])) s
def execBmov (n : AnyCore) (rd rs1 rs2 : GReg) (s : State) : Host.Outcome State Fault Refusal :=
  .next (block n rd rs1 rs2 true (bmov n rd rs1 rs2) s)

/-- One element of BCRC: the bytes up to the next 8-byte boundary. -/
def bcrc (n rd rs1 rs2 sh : Nat) (s : State) : State :=
  let a := s.g n rs1
  let k := s.g n rs2
  let len := min k.toNat (8 - a.toNat % 8)
  blockRead n a.toNat len (fun s =>
    let step := if sh = 0 then crc32Byte else crcHByte
    let c := (s.rdBytes a.toNat len).foldl step (s.g n rd)
    blockStep n rs2 (s.setGs n
      [(rd, c), (rs1, a + BitVec.ofNat 32 len), (rs2, k - BitVec.ofNat 32 len)])) s
def execBcrc (n : AnyCore) (rd rs1 rs2 : GReg) (sh : Fin 64) (s : State) :
    Host.Outcome State Fault Refusal :=
  .next (block n rd rs1 rs2 (decide (sh.val ≤ 1)) (bcrc n rd rs1 rs2 sh) s)

/-- One entry of TSRCH. -/
def tsrch (n rd rs1 rs2 sh : Nat) (s : State) : State :=
  let a := s.g n rs1
  if a.toNat % 4 ≠ 0 then s.raise n exAlign a
  else
    blockRead n a.toNat 4 (fun s =>
      if s.rd32 a.toNat = s.g n rd then s.pass n
      else blockStep n rs2 (s.setGs n
        [(rs1, a + BitVec.ofNat 32 (4 * 2 ^ sh)), (rs2, s.g n rs2 - 1)])) s
def execTsrch (n : AnyCore) (rd rs1 rs2 : GReg) (sh : Fin 64) (s : State) :
    Host.Outcome State Fault Refusal :=
  .next (block n rd rs1 rs2 (decide (sh.val ≤ 3)) (tsrch n rd rs1 rs2 sh) s)

/-! ### Hive instructions (R301 to R304, R310, R311) -/

/-- What a pop gives is stored, and its status returned. -/
def popRetire (n rd a : Nat) (p : PopOut) (s : State) : State :=
  let s := match p.item with
    | some item => s.eccBytes a item n
    | none => s
  s.retire n rd p.status

/-- A QPOP of another core that Hive takes in the same round: it stands at its instruction, on the
same queue, with rights to its item's place (R304). -/
def State.joins (s : State) (n q m rs1 rs2 : Nat) : Bool :=
  m != n && m != coreBs && (s.core m).ready && (fetch m s).1 && s.g m rs1 == BitVec.ofNat 32 q &&
    rangeWritable (s.g m rs2).toNat 8

/-- QPUSH -/
def qpush (n rd rs1 rs2 : Nat) (pop : Option (AnyCore × GReg × GReg × GReg)) (s : State) : State :=
  let q := (s.g n rs1).toNat
  let s := drainAll n s
  blockRead n (s.g n rs2).toNat 8 (fun s =>
    let item := s.rdBytes (s.g n rs2).toNat 8
    let alone := fun (s : State) =>
      let r := hivPush q item s
      r.2.retire n rd r.1
    match pop with
    | none => alone s
    | some (m, mrd, mq, ma) =>
      if s.joins n q m mq ma then
        let s := drainAll m (fetch m s).2
        let r := hivRound q item s
        popRetire m mrd (s.g m ma).toNat r.2.1 (r.2.2.retire n rd r.1)
      else alone s) s
def execQpush (n : AnyCore) (rd rs1 rs2 : GReg) (pop : Option (AnyCore × GReg × GReg × GReg))
    (s : State) : Host.Outcome State Fault Refusal := .next (notBs n (qpush n rd rs1 rs2 pop) s)

/-- QPOP -/
def qpop (n rd rs1 rs2 : Nat) (s : State) : State :=
  let a := (s.g n rs2).toNat
  if !(rangeWritable a 8) then s.raise n exAccess (s.g n rs2)
  else
    let r := hivPop (s.g n rs1).toNat (drainAll n s)
    popRetire n rd a r.1 r.2
def execQpop (n : AnyCore) (rd rs1 rs2 : GReg) (s : State) : Host.Outcome State Fault Refusal :=
  .next (notBs n (qpop n rd rs1 rs2) s)

/-- The flags of the core's current task under a mask (R311); none when it has no current task. -/
def State.eventFlags (s : State) (n : Nat) (mask : Word) : Option (BitVec 64) :=
  (s.hcore n).cur.map (fun t => (s.htask t).flags &&& mask.setWidth 64)

/-- EVWAIT completes with the flags found, which are cleared. -/
def evTake (n rd : Nat) (f : BitVec 64) (s : State) : State :=
  let s := match (s.hcore n).cur with
    | some t => s.setHtask t { s.htask t with flags := (s.htask t).flags &&& ~~~f }
    | none => s
  s.retire n rd (f.setWidth 32)

/-- EVWAIT -/
def evwait (n rd rs1 : Nat) (s : State) : State :=
  let s := drainAll n s
  let m := s.g n rs1
  match s.eventFlags n m with
  | none => s.retire n rd 0
  | some f => if f = 0 then s.setCore n { s.core n with wait := .evwait rd m } else evTake n rd f s
def execEvwait (n : AnyCore) (rd rs1 : GReg) (s : State) : Host.Outcome State Fault Refusal :=
  .next (notBs n (evwait n rd rs1) s)

/-- EVSET: a task number with bits [31:12] not 0 is discarded. -/
def evset (n rs1 rs2 : Nat) (s : State) : State :=
  let s := drainAll n s
  let t := (s.g n rs1).toNat
  let s := if t < 4096 then
      s.setHtask t { s.htask t with flags := (s.htask t).flags ||| (s.g n rs2).setWidth 64 } else s
  s.pass n
def execEvset (n : AnyCore) (rs1 rs2 : GReg) (s : State) : Host.Outcome State Fault Refusal :=
  .next (notBs n (evset n rs1 rs2) s)

/-- EVWAIT_WAKE: a flag that a waiting EVWAIT asks for is set. -/
def evwaitWake (n : Nat) (s : State) : State :=
  let c := s.core n
  match c.wait with
  | .evwait rd m =>
    if !c.live then s
    else
      match s.eventFlags n m with
      | none => s.retire n rd 0
      | some f => if f = 0 then s else evTake n rd f s
  | _ => s
def execEvwaitWake (n : Core) (s : State) : Host.Outcome State Fault Refusal :=
  .next (evwaitWake n.val s)

/-! ### Control of the cores -/

/-- STORE_DRAIN -/
def execStoreDrain (n : Core) (s : State) : Host.Outcome State Fault Refusal :=
  .next (drainOne n.val s).settled

/-- CORE_RUN -/
def execCoreRun (n : Core) (s : State) : Host.Outcome State Fault Refusal :=
  .next (startedBy n.val (coreRun n.val) s)

/-- CORE_STOP: the core stops and its store buffer drains. -/
def execCoreStop (n : Core) (s : State) : Host.Outcome State Fault Refusal :=
  .next (coreStop n.val s).settled

/-- CORE_HALTED: a requested halt takes effect at a boundary; a COMMIT that waits is inside its
instruction. -/
def coreHalted (n : Nat) (s : State) : State :=
  let c := s.core n
  if c.haltReq && c.run && !c.nested && c.wait.interruptible then (debugHalt n s).settled else s
def execCoreHalted (n : Core) (s : State) : Host.Outcome State Fault Refusal := .next (coreHalted n.val s)

/-- RESUME; a safe image owed since the halt may then be written. -/
def execResume (n : Core) (s : State) : Host.Outcome State Fault Refusal := .next (resume n.val s).settled

/-! ### A register written by a command of its own (R8, R13) -/

/-- REGISTER_WRITE: a write below the unassigned range that does not cover the whole word is discarded
(R8); one into the unassigned range is an unmapped access whatever it covers (R28). -/
def registerWrite (src : Src) (off : Nat) (be : BitVec 4) (data : Word) (s : State) : State :=
  if (be = 0xF ∨ regEnd ≤ off / 4 * 4) ∧ off < barRegEnd then (regWrite src off data s).settled else s

/-- Of MTS_INJ in factory test mode the spec gives no effect (R376): as with MTS_INJ's own row. -/
def execRegisterWrite (src : Src) (off : BitVec 24) (be : BitVec 4) (data : Word) (s : State) :
    Host.Outcome State Fault Refusal :=
  if be = 0xF ∧ off.toNat / 4 * 4 = R.MTS_INJ ∧ s.flag F.MTS_STAT_FTM then .refused .factoryInjection
  else .next (registerWrite src off.toNat be data s)

end Sys2Proof.Machine
end

