-- ==== Sys2Proof/Machine/Admit.lean ====
section
/-!
DEFINITION. The admission point (R18): the reports of the cells and Swarm's checks on them (R60, R75,
R76, R112, R345), the state commands with their conditions and the transitions (R44 to R52, R372,
R373), and the start of the sweep's chain.
-/

namespace Sys2Proof.Machine

/-! ### Cell reports (R60, R75, R76, R214) -/

/-- A valid report of a cell in use is entered. -/
def State.enterReport (s : State) (id : Nat) (r : Report) : State :=
  let c := s.cell id
  let s := s.setCell id { c with
    raws := (r.vcap :: c.raws).take 5, nValid := min 5 (c.nValid + 1), age := 0, repAt := s.crk.admAt
    repState := r.state }
  let s := if r.flags.testBit 0 then s.bump (F.SWM_RCNT_LATE_EDGE.up (0x20 * (id / 1024))) 1 else s
  mothReport id r.vcap s

/-- A cell without a valid report grows older. -/
def State.ageCell (s : State) (id : Nat) : State :=
  let c := s.cell id
  s.setCell id { c with age := min 65535 (c.age + 1) }

/-- The cell IDs of an arm outside the slots in use that something is held of. -/
def State.cellsOutside (s : State) (n : Nat) : List Nat :=
  (s.cells.map (fun e => e.1)).filter (fun id => id / 1024 == n && decide (s.nSlots n ≤ id % 1024))

/-- The cell IDs of an arm whose age counts: the slots in use, and slots that were in use before. -/
def State.agedCells (s : State) (n : Nat) : List Nat :=
  (List.range (s.nSlots n)).map (cellId n) ++ s.cellsOutside n

/-- The reports of one arm's admitted upstream frames, by cell ID. -/
def State.armReports (s : State) (n : Nat) : State × List (Nat × Report) :=
  (List.range 8).foldl (fun (a : State × List (Nat × Report)) l =>
    let r := a.1.admitLane n l
    let mine := (r.2.map (fun x => (cellId n (128 * l + x.lslot), x))).filter (fun x =>
      decide (x.1 % 1024 < s.nSlots n))
    (r.1, a.2 ++ mine)) (s, [])

/-- The admission of one arm's reports. The second component is what Swarm's checks look at. -/
def State.admitArm (s : State) (n : Nat) : State × List (Nat × Report) :=
  let r := s.armReports n
  let s := forL r.2 (fun (x : Nat × Report) s => s.enterReport x.1 x.2) r.1
  let s := forL (s.agedCells n) (fun id s =>
    if r.2.any (fun x => x.1 == id) then s else s.ageCell id) s
  (s, r.2)

/-- The cell IDs of an arm, outside the slots in use, that are or were held in Permanent bypass (R93). -/
def State.permOutside (s : State) (n : Nat) : List Nat :=
  ((s.regs.filter (fun e => decide (R.SWM_CF ≤ e.1) && decide (e.1 < R.SWM_CF + 4 * 6144))).map
    (fun e => (e.1 - R.SWM_CF) / 4)).filter (fun id =>
      id / 1024 == n && decide (s.nSlots n ≤ id % 1024) && (s.cfPerm id || (s.cell id).perm))

/-- UNAV and Permanent bypass of the slots in use as they stand at this admission point; the filter of
an unavailable slot, one out of use among them, starts afresh (R60, R75, R76). -/
def State.availArm (s : State) (n : Nat) : State :=
  forN (s.nSlots n) (fun k s =>
    let id := cellId n k
    let u := s.unav n k
    let c := s.cell id
    s.setCell id { c with
      unav := u, perm := s.cfPerm id, nValid := if u = 0 then c.nValid else 0 })
    (forL (s.cellsOutside n) (fun id s => s.setCell id { s.cell id with nValid := 0 })
      (forL (s.permOutside n) (fun id s => s.setCell id { s.cell id with perm := s.cfPerm id }) s))

/-! ### Swarm's checks (R112, Table 4.6) -/

/-- The states held between two instants by a history of states, newest first, that holds up to `up`. -/
def heldIn (lo hi : Int) : Int → List (Nat × Nat) → List Nat
  | up, [] => if lo < up then [codeBlocked] else []
  | up, (c, a) :: r =>
    (if (a : Int) ≤ hi ∧ lo < up then [c] else []) ++ heldIn lo hi (min up a) r

/-- The instant, ps, at which a report admitted now was sampled (R214). -/
def State.sampledAt (s : State) (n : Nat) (c : CellSt) : Int :=
  (s.crk.admAt : Int) - 1000 * (s.upLag n * s.period) + 1000 * s.commitNs + 5120 + 125 * c.delay +
    1000 * s.effFld (portFld n F.DFY_FCFG_SAMP_NS)

/-- Whether a reported state is none that the cell was commanded to hold at the sampling instant; an
edge lies within ±8 ns of its time (R107). -/
def State.differs (s : State) (id : Nat) (state : Nat) : Bool :=
  let c := s.cell id
  let t := s.sampledAt (id / 1024) c
  !((heldIn (t - 8000) (t + 8000) (t + 8001) c.hist).contains state)

/-- A report's fault code raised by the cell: a new fault unless the cell has reported it before and its
record is active. Codes of Table 4.6 that no cell raises (UV, MISMATCH, CAL, reserved) are none. -/
def State.reportFault (s : State) (id : Nat) (f : Nat) : State :=
  let c := s.cell id
  let s := s.setCell id { c with lastFault := f }
  if f = 0 ∨ f = 2 ∨ f = 7 ∨ 0xA ≤ f then s
  else if s.cfActive id && (c.lastFault == f || s.fld (cfFld id F.SWM_CF_CODE) == f) then s
  else s.cellFault id f (s.heldOf f) false

/-- VMED against the thresholds of VNOM (codes OV and UV). -/
def State.voltFault (s : State) (id : Nat) : State :=
  let n := id / 1024
  let c := s.cell id
  let v := c.vmed (s.swm n F.SWM_CTL_MED)
  let pct := fun (x : Fld) => s.effFld (x.up (0x20 * n))
  if pct F.SWM_CFTHR_OV_PCT * c.vnom < 100 * v then s.cellFaultSeen id 1 true
  else if s.opState = stDeblocked ∧ 100 * v < pct F.SWM_CFTHR_UV_PCT * c.vnom then s.cellFaultSeen id 2 true
  else s

/-- MISMATCH: two reports in succession that differ from the committed state. After a takeover the
reported state is taken instead (R345). -/
def State.mismatch (s : State) (id : Nat) (state : Nat) : State :=
  let c := s.cell id
  if s.inGrace (id / 1024) then
    (if c.endState = state then s
     else s.setCell id { c with
      endState := state, hist := (state, s.now) :: c.hist, cmd := { code := state }, mismatch := 0 })
  else if s.differs id state then
    (if c.mismatch = 0 then s.setCell id { c with mismatch := 1 }
     else (s.setCell id { c with mismatch := 0 }).cellFaultSeen id 7 true)
  else s.setCell id { c with mismatch := 0 }

/-- The checks on the cells that reported, after the transitions of this admission point. -/
def State.checkArm (s : State) (rs : List (Nat × Report)) : State :=
  let s := forL rs (fun (x : Nat × Report) s =>
    (s.reportFault x.1 x.2.fault).mismatch x.1 x.2.state) s
  forL (rs.map (fun x => x.1)) (fun id s =>
    if (s.cell id).flags.testBit 0 then s.voltFault id else s) s

/-! ### Conditions of the commands (Tables 2.3 and 2.4) -/

def eNone : Nat := 0
def eWrongState : Nat := 1
def eUnconfirmed : Nat := 2
def eSetIncomplete : Nat := 3
def eBand : Nat := 4
def eNoLock : Nat := 5
def eTrack : Nat := 6
def eNotActive : Nat := 7
def eTopo : Nat := 8
def eFaultActive : Nat := 9
def eTimePast : Nat := 10
def eWin : Nat := 11
def eEdge : Nat := 12

/-- The arms of a list, as a mask. -/
def armMask (l : List Nat) : Nat := l.foldl (fun a n => a + 2 ^ n) 0

/-- The first condition of a list that fails: its code and the arms that fail it. -/
def firstErr (l : List (Bool × Nat × Nat)) : Nat × Nat :=
  match l.find? (fun x => x.1) with
  | some x => x.2
  | none => (eNone, 0)

/-- The arm set that a topology requires; none where any non-empty set is valid (Table 2.5). -/
def topoArms (topo : Nat) : Option Nat :=
  match topo with
  | 0 => some 0x3F
  | 1 => some 0x07
  | 2 => some 0x07
  | 3 => some 0x0F
  | 4 => some 0x03
  | _ => none

/-- Whether every present cell of an arm is full-bridge. -/
def State.allFb (s : State) (n : Nat) : Bool :=
  (List.range (s.nSlots n)).all (fun k =>
    let c := s.cell (cellId n k)
    !(c.flags.testBit 0) || c.flags.testBit 1)

/-- Whether ARM_EN suits TOPO (R51). -/
def State.topoOk (s : State) : Bool :=
  let topo := s.fld F.CRK_ARMS_TOPO
  let en := s.fld F.CRK_ARMS_ARM_EN
  (match topoArms topo with
    | some m => en == m
    | none => topo == 5 && en != 0) &&
  (!(topo == 1 || topo == 2) || s.armsEn.all s.allFb)

/-- The Precharge conditions. -/
def State.preErr (s : State) : Nat × Nat :=
  let set := s.armsEn.filter (fun n => !(s.armSet n))
  let edge := s.armsEn.filter (fun n => decide (s.period / s.sep n < 4))
  firstErr [
    (!(s.flag F.MTS_STAT_CONFIRMED), eUnconfirmed, 0),
    (!s.permit, eFaultActive, 0),
    (!set.isEmpty, eSetIncomplete, armMask set),
    (!s.topoOk, eTopo, 0),
    (s.anyTrip, eFaultActive, 0),
    (s.crk.winShort, eWin, 0),
    (!edge.isEmpty, eEdge, armMask edge)]

/-- Whether an arm's available cells lie in the band, and are enough. -/
def State.inBand (s : State) (n : Nat) : Bool :=
  let av := ((List.range (s.nSlots n)).map (fun k => s.cell (cellId n k))).filter (fun c => c.unav == 0)
  decide (s.swm n F.SWM_CFG_N_MIN ≤ av.length) && av.all (fun c =>
    let v := 100 * c.vmed (s.swm n F.SWM_CTL_MED)
    decide (s.fld F.CRK_BAND_LO_PCT * c.vnom ≤ v) && decide (v ≤ s.fld F.CRK_BAND_HI_PCT * c.vnom))

/-- The Ready conditions. -/
def State.bandErr (s : State) : Nat × Nat :=
  let bad := s.armsEn.filter (fun n => !(s.inBand n))
  firstErr [(!bad.isEmpty, eBand, armMask bad)]

/-- HRN_SUP: AC side live, DC side live, phase lock (Table 5.3). -/
def State.acLive (s : State) : Bool := (s.reg R.HRN_SUP).getLsbD 0
def State.dcLive (s : State) : Bool := (s.reg R.HRN_SUP).getLsbD 1
def State.phaseLock (s : State) : Bool := (s.reg R.HRN_SUP).getLsbD 2
def State.live (s : State) : Bool := s.acLive || s.dcLive

/-- Whether the lock has been held for LOCK_MS, and never less than 20 ms (R52). -/
def State.lockHeld (s : State) : Bool :=
  match s.crk.lockFrom with
  | none => false
  | some t => decide (max 20 (s.fld F.CRK_FLY_LOCK_MS) * psMs ≤ s.crk.admAt - t)

/-- Whether an arm's tracking error has been small in each of the last 16 sweeps, with 16 committed since RUN
last changed to 1 (R52), in mV. -/
def State.tracks (s : State) (n : Nat) : Bool :=
  let lim : Int := (s.fld F.CRK_FLY_DV_MAX * s.fld F.CRK_VBASE_VBASE * 100 : Nat)
  decide (16 ≤ s.crk.commits) && s.crk.track.all (fun l => decide (l.getD n 0 ≤ lim))

/-- The flying-deblock conditions (R52, Table 2.13). -/
def State.flyErr (s : State) : Nat × Nat :=
  let bad := s.armsEn.filter (fun n => !(s.tracks n))
  firstErr [
    (s.acLive && !s.lockHeld, eNoLock, 0),
    (s.fld F.CRK_VBASE_VBASE == 0, eTrack, s.fld F.CRK_ARMS_ARM_EN),
    (s.live && !bad.isEmpty, eTrack, armMask bad)]

/-- The first error of several checks in order. -/
def orErr (a b : Nat × Nat) : Nat × Nat := if a.1 = eNone then b else a

/-- Whether Mantis has released block-all and the trip outputs. -/
def State.mtsReleased (s : State) : Bool :=
  !(s.flag F.MTS_STAT_BLOCK_ALL) && s.fld F.MTS_STAT_TRIP == 0

/-- The states from which a command is allowed, and the state it leads to (Table 2.3). -/
def cmdFrom (code : Nat) : List Nat :=
  match code with
  | 1 => [stBlocked]
  | 2 => [stPrecharge]
  | 3 => [stReady]
  | 4 => [stDeblocked]
  | 5 => [stPrecharge, stReady, stDeblocked, stServicing]
  | 6 => [stTripped]
  | 7 => [stBlocked]
  | 8 => [stReady]
  | _ => []
def cmdTo (code : Nat) : Nat :=
  match code with
  | 1 => stPrecharge
  | 2 => stReady
  | 3 => stDeblocked
  | 4 => stReady
  | 7 => stServicing
  | 8 => stDeblocked
  | _ => stBlocked

/-- In factory test mode the device does not leave Blocked (Table 15.8). -/
def State.ftmHolds (s : State) (code : Nat) : Bool :=
  s.flag F.MTS_STAT_FTM && code == cmdService

/-- The conditions of a command in a state that allows it. -/
def State.condErr (s : State) (code : Nat) : Nat × Nat :=
  if code = cmdPrecharge then s.preErr
  else if code = cmdReady then s.bandErr
  else if code = cmdDeblock ∨ code = cmdDeblockAt then orErr s.preErr (orErr s.bandErr s.flyErr)
  else if code = cmdReset then
    firstErr [(!s.mtsReleased, eFaultActive, 0), (s.anyTrip, eFaultActive, 0)]
  else if code = cmdService then
    firstErr [(s.anyTrip || s.ftmHolds code, eFaultActive, 0), (s.crk.winShort, eWin, 0)]
  else (eNone, 0)

/-- The result of a command's evaluation. -/
def State.cmdErr (s : State) (code : Nat) : Nat × Nat :=
  if (cmdFrom code).contains s.opState then s.condErr code else (eWrongState, 0)

/-! ### Transitions (R44 to R49) -/

/-- The operating state changes. -/
def State.enterState (s : State) (st cause : Nat) : State :=
  let was := s.opState
  let s := (s.setFld F.CRK_STATE_STATE st).setFld F.CRK_STATE_CAUSE cause
  s.stateEdge was st

/-- A pending command is done with. -/
def State.cmdDone (s : State) (code : Nat) (e : Nat × Nat) : State :=
  let s := { s with crk := { s.crk with pend := none, dbSeen := false } }
  let s := (s.setFlag F.CRK_CMD_STAT_PEND false).setFld F.CRK_CMD_STAT_LAST code
  (s.setFld F.CRK_CMD_STAT_ERR e.1).setFld F.CRK_CMD_STAT_ARM_FAIL e.2

/-- CRK_DBAT, ns. -/
def State.dbat (s : State) : Nat := (s.reg64 R.CRK_DBAT_LO).toNat
/-- Whether a pending DEBLOCK_AT is due at this admission point, and whether its time is long past
(R49). -/
def State.dbDue (s : State) : Bool := decide (1000 * (s.dbat : Int) ≤ s.ffyPs)
def State.dbPast (s : State) : Bool :=
  decide (1000 * ((s.dbat : Int) + s.period) < s.ffyPs) && !s.crk.dbSeen

/-- A pending command displaced by a transition of this admission point (R47, R373); one that is not
due does not fall on it. -/
def State.displace (s : State) : State :=
  match s.crk.pend with
  | none => s
  | some c =>
    if c = cmdDeblockAt ∧ s.crk.dbSeen ∧ !s.dbDue then s else s.cmdDone c (eWrongState, 0)

/-- A command executed or rejected. -/
def State.runCmd (s : State) (code : Nat) : State :=
  let e := s.cmdErr code
  let s := s.cmdDone code e
  if e.1 ≠ eNone then s
  else
    let s := if cmdTo code = stDeblocked then s.setFlag F.CRK_STATE_FLYING s.live else s
    s.enterState (cmdTo code) 1

/-- The pending command at an admission point. -/
def State.pendCmd (s : State) : State :=
  match s.crk.pend with
  | none => s
  | some c =>
    if c = cmdDeblockAt then
      (if s.dbPast then s.cmdDone c (eTimePast, 0)
       else if !s.dbDue then { s with crk := { s.crk with dbSeen := true } }
       else s.runCmd c)
    else s.runCmd c

/-- The trip that falls on this admission point: its cause, by the order of R373. In factory test mode
the device does not leave Blocked (Table 15.8). -/
def State.tripCause (s : State) : Option Nat :=
  if s.flag F.MTS_STAT_FTM then none
  else if s.crk.mtsTrip then some 2 else if s.crk.lateTrip then some 4
  else if s.ccd.trip then some 3 else none

/-- The transitions of an admission point on a module with its own Cricket (R46, R47, R373). -/
def State.ownState (s : State) : State :=
  let trip := s.tripCause
  let blk := s.ccd.block && s.opState == stDeblocked
  let s := { s with
    crk := { s.crk with mtsTrip := false, lateTrip := false }
    ccd := { s.ccd with trip := false, block := false } }
  match trip with
  | some c => (if s.opState = stTripped then s else s.enterState stTripped c).displace
  | none => if blk then (s.enterState stReady 3).displace else s.pendCmd

/-- The operating state at an admission point: a standby follows its mirror and takes no command; a
Mantis trip stays to be taken while its block-all stands (R50, Table 14.1). -/
def State.stateAdmit (s : State) : State :=
  if s.role = roleStandby ∨ s.role = roleArming then
    let s := { s with
      crk := { s.crk with
        mtsTrip := s.crk.mtsTrip && s.flag F.MTS_STAT_BLOCK_ALL, lateTrip := false }
      ccd := { s.ccd with trip := false, block := false } }
    match s.crk.pend with
    | none => s
    | some c => s.cmdDone c (eNotActive, 0)
  else s.ownState

/-! ### The admission point -/

/-- What R52 keeps of the supervision outputs. Those of before RUN do not count as a tracked sweep. -/
def State.supervise (s : State) : State :=
  let err := (List.range 6).map (fun n => (((s.reg (R.HRN_OUT + 4 * (64 + n))).toInt.natAbs : Nat) : Int))
  let c := s.crk
  { s with crk := { c with
    since := min 16 (c.since + 1)
    track := if c.since = 0 then [] else (err :: c.track).take 16
    lockFrom := if s.phaseLock then some (c.lockFrom.getD c.admAt) else none } }

/-- The clear requests of fault records (R113). -/
def State.clears (s : State) : State :=
  let ids := (s.regs.filter (fun e => decide (R.SWM_CF ≤ e.1) && decide (e.1 < R.SWM_CF + 4 * 6144) &&
    e.2.getLsbD F.SWM_CF_CLR.lo)).map (fun e => (e.1 - R.SWM_CF) / 4)
  forL ids (fun id s => s.applyClr id) s

/-- Waits of the cores for a release point end (R275, R276). -/
def State.wakeSweep (s : State) (adm : Bool) : State :=
  forN 8 (fun n s =>
    let c := s.core n
    if !c.live then s
    else match c.wait with
      | .sweep rd a => if a == adm then s.retire n rd s.sweep else s
      | .commit rd k => if adm && decide (0 ≤ sdiff s.sweep k) then s.retire n rd k else s
      | _ => s) s

/-- Delay calibration passes follow each other with BG_EN (R105). -/
def State.bgPass (s : State) : State :=
  if s.flag F.SWM_CAL_BG_EN && !s.dcal.running then s.passStart else s

/-- The sweep that starts at this instant has its number, its settings and its points. -/
def State.beginSweep (s : State) (num at_ : Nat) : State :=
  let s := s.setReg R.CRK_SWEEP (BitVec.ofNat 32 num)
  let s := s.setFld F.CRK_CTL_HALF (if s.alt then num % 2 else 0)
  { s with
    eff := s.regs
    crk := { s.crk with
      admAt := at_, commitDue := some (at_ + s.commitNs * psNs), stage := .admitted
      nextAdm := some (at_ + s.period * psNs), nextNum := (num + 1) % 2 ^ 32 } }

/-- The reports of every arm. -/
def State.admitArms (s : State) : State × List (Nat × List (Nat × Report)) :=
  (List.range 6).foldl (fun (a : State × List (Nat × List (Nat × Report))) n =>
    let r := a.1.admitArm n
    (r.1, a.2 ++ [(n, r.2)])) (s, [])

/-- What Swarm takes over at an admission point (R57, R84, R87, R115). -/
def State.swarmAdmit (s : State) : State :=
  forN 6 (fun n s =>
    let s := ((s.tableAdmit n).hookAdmit n).availArm n
    s.setArm n { s.arm n with grants := 0 }) s

/-- The test lists of an admission point (R79). -/
def State.testAdmit (s : State) : State := forN 6 (fun n s => s.testAdmitArm n) s

/-- A sweep begun and its inputs taken: the state in which the commands of the admission point are evaluated,
and the reports of each arm. -/
def State.admitInputs (s : State) (num at_ : Nat) : State × List (Nat × List (Nat × Report)) :=
  let s := ((s.beginSweep num at_).supervise).clears
  let r := (twinAdmit (mothAdmit s)).admitArms
  (r.1.swarmAdmit, r.2)

/-- The sweep of number `num` admitted at an instant. A state command is evaluated with the EXEC_EN in effect
before (DESIGN CHOICE: assumption 54). The state command and Swarm's checks come before Midge's plausibility
check (DESIGN CHOICE: assumption 201). -/
def admitSweep (num at_ : Nat) (s : State) : State :=
  let old := s.eff
  let s0 := s
  let r := s.admitInputs num at_
  let s := r.1.stateAdmit
  let s := forL r.2 (fun (x : Nat × List (Nat × Report)) s => s.checkArm x.2) s
  let s := lcwAdmit old (mdgAdmit s)
  let s := forN 7 (fun p s => (s.impAdmit p).portSet p) s
  let s := hornetAdmit s.testAdmit
  ((s0.logOrder (pairCheck s)).bgPass).wakeSweep true

/-- The sweep that an admission point starts: its number, its instant, and the state that reaches it. Values
held back by R33 take effect at the end of the sweep before, and the sweep is that of the first point of the
new grid from there on. None while no sweep is to start, or a commit point is due. -/
def State.sweepToStart (s : State) : Option (Nat × Nat × State) :=
  match s.crk.nextAdm with
  | none => none
  | some a =>
    if s.crk.commitDue.isSome then none
    else
      let s := s.reach a
      if s.crk.gridDue then
        let s := s.gridApply
        let g := s.gridAt a
        some (sweepOf g.1, g.2, s.reach g.2)
      else some (s.crk.nextNum, a, s)

/-- ADMISSION_POINT -/
def admissionPoint (s : State) : State :=
  match s.sweepToStart with
  | none => s
  | some (num, at_, s) => admitSweep num at_ s

def execAdmissionPoint (s : State) : Host.Outcome State Fault Refusal := .next (admissionPoint s)

/-! ### The commands of CRK_CMD: written, and evaluated at the next admission point -/

/-- A state command: its write, and the admission point that follows, where one does. -/
def stateCommand (code : Nat) (s : State) : State := admissionPoint (commandWrite code s)

def execPrecharge (s : State) : Host.Outcome State Fault Refusal := .next (stateCommand cmdPrecharge s)
def execReadyCmd (s : State) : Host.Outcome State Fault Refusal := .next (stateCommand cmdReady s)
def execDeblock (s : State) : Host.Outcome State Fault Refusal := .next (stateCommand cmdDeblock s)
def execBlock (s : State) : Host.Outcome State Fault Refusal := .next (stateCommand cmdBlock s)
def execStop (s : State) : Host.Outcome State Fault Refusal := .next (stateCommand cmdStop s)
def execReset (s : State) : Host.Outcome State Fault Refusal := .next (stateCommand cmdReset s)
def execService (s : State) : Host.Outcome State Fault Refusal := .next (stateCommand cmdService s)
def execDeblockAt (s : State) : Host.Outcome State Fault Refusal := .next (stateCommand cmdDeblockAt s)

/-- DEBLOCK_AT_DUE: the first admission point at or after CRK_DBAT. -/
def deblockAtDue (s : State) : State :=
  match s.crk.nextAdm with
  | none => s
  | some a =>
    if s.crk.pend = some cmdDeblockAt ∧ s.crk.dbSeen ∧ (s.reach a).dbDue then admissionPoint s else s
def execDeblockAtDue (s : State) : Host.Outcome State Fault Refusal := .next (deblockAtDue s)

/-! ### Moth and twin commands that take effect at the next admission point -/

/-- ARM (R322) -/
def execArm (s : State) : Host.Outcome State Fault Refusal := .next (admissionPoint (armWrite s))
/-- MOTH_MODE_CHANGE (R319) -/
def execMothModeChange (en mode : Bool) (s : State) : Host.Outcome State Fault Refusal :=
  .next (admissionPoint (mothModeWrite en mode s))
/-- RELEASE (R335) -/
def execRelease (s : State) : Host.Outcome State Fault Refusal := .next (admissionPoint (releaseWrite s))

/-- TAKEOVER: the admission point at which an ARMING module's takeover is due (R344). -/
def takeover (s : State) : State :=
  match s.crk.nextAdm with
  | none => s
  | some a => if s.armingDue (max s.now a) then admissionPoint s else s
def execTakeover (s : State) : Host.Outcome State Fault Refusal := .next (takeover s)

/-- HANDOVER_SWITCH: the admission point of sweep H of a handover in progress (R348). -/
def handoverSwitch (s : State) : State :=
  if s.twn.ho ≠ .none ∧ s.twn.ho ≠ .req ∧ s.comingNum = (s.reg R.TWN_HO).toNat then admissionPoint s
  else s
def execHandoverSwitch (s : State) : Host.Outcome State Fault Refusal := .next (handoverSwitch s)

end Sys2Proof.Machine
end

