-- ==== Sys2Proof/Machine/Commit.lean ====
section
/-!
DEFINITION. The commit point (R18 to R21, R40 to R43): what a sweep's chain has made becomes visible,
or is discarded and the commands before are repeated; and the scrub (R26).
-/

namespace Sys2Proof.Machine

/-- Whether the chain of the present sweep is incomplete (R21). -/
def State.chainLate (s : State) : Bool := s.crk.stage != .assembled

/-- CRK_LATE.LIMIT, with 0 acting as 1. -/
def State.lateMax (s : State) : Nat := max 1 (s.fld F.CRK_LATE_LIMIT)

/-- LATE_LIMIT: CONSEC has reached the limit in Deblocked; the trip follows at the next admission point
(R43). -/
def lateLimit (s : State) : State :=
  if s.opState = stDeblocked ∧ s.lateMax ≤ s.fld F.CRK_LATE_CONSEC ∧ !s.crk.lateTrip then
    { s with crk := { s.crk with lateTrip := true } }.report 0x06 0
  else s

def execLateLimit (s : State) : Host.Outcome State Fault Refusal := .next (lateLimit s)

/-- A late commit: counted and reported; the commands before are repeated on every lane, and the late
results are discarded (R21, R40 to R43). -/
def lateCommit (s : State) : State :=
  let s := (s.bump F.CRK_LATE_TOTAL 1).bump F.CRK_LATE_CONSEC 1
  let s := (s.setFlag F.CRK_LATE_FLAG true).report 0x05 0
  let fr := s.frames (s.frameCtx true) s.repeatCmd
  let s := forN 6 (fun n s => s.swarmRepeatArm n) s
  lateLimit (s.releaseFrames fr).hornetDiscard

/-- A commit in time: every result of the sweep becomes visible (R18, R40). -/
def timelyCommit (s : State) : State :=
  let s := s.setFld F.CRK_LATE_CONSEC 0
  let s := lcwCommit (hornetCommit s)
  let s := forN 6 (fun n s => s.swarmCommitArm n) s
  let s := { s with crk := { s.crk with
    dbDone := s.crk.dbDone ||| s.halves, commits := min 16 (s.crk.commits + 1) } }
  s.releaseFrames s.dfy.asm

/-- The commit-point vector (Table 17.4, HST_TICK). -/
def State.hostTick (s : State) : State :=
  let d := s.fld F.HST_TICK_DIV
  let k := s.hst.ticks + 1
  if d = 0 then s
  else if d ≤ k then { s with hst := { s.hst with ticks := 0 } }.vector 21
  else { s with hst := { s.hst with ticks := k } }

/-- The sweep is over at its commit point; a chain that is late runs on until the next admission point
abandons it (R41). Values that wait for a grid without sweeps take effect, and so does EXEC_EN (R124). -/
def State.endSweep (s : State) : State :=
  let st := s.crk.stage
  let s := { s with crk := { s.crk with commitDue := none, stage := if st == Stage.assembled then Stage.idle else st } }
  let s := if s.crk.gridDue && !s.running then s.gridApply else s
  if s.running then s else s.exApply

/-- COMMIT_POINT -/
def commitPoint (s : State) : State :=
  match s.crk.commitDue with
  | none => s
  | some t =>
    let s := s.reach t
    let late := s.chainLate
    let s0 := s
    let s := if late then lateCommit s else timelyCommit s
    let s := twinCommit late (mothCommit late s)
    let s := s0.logOrder (tasksCommit s.sweep s)
    let s := (forN 8 (fun n s => s.ipend n 1) s).hostTick
    (s.wakeSweep false).endSweep.settled

def execCommitPoint (s : State) : Host.Outcome State Fault Refusal := .next (commitPoint s)

/-! ### The scrub (R16, R17, R26) -/

/-- The lines of a scrub pass: those of the main SRAM (Table 1.2, Table 1.13). -/
def scrubLines : Nat := 2097152

/-- SCRUB_LINE: one line read, corrected and written back; the write-back is discarded when another
write has reached the line. An uncorrectable word stays and is reported. A bank that is not to be used is
passed over (R23). The write-back is a write that consumes an armed injection (R377). -/
def scrubLine (raced : Bool) (s : State) : State :=
  if s.flag F.GCR_SCRUB_EN then
    let k := s.ecc.scrubAt
    let a := 64 * k
    let s := if raced || !(s.bankOpen a) then s else s.correct a 64
    let s := if s.bankOpen a && s.poisoned a 64 then s.memUe a else s
    let s := if raced then s else s.consumeInj a
    let last := decide (scrubLines ≤ k + 1)
    { s with ecc := { s.ecc with
      scrubAt := if last then 0 else k + 1, passAt := if last then s.now else s.ecc.passAt } }
  else s

def execScrubLine (raced : Bool) (s : State) : Host.Outcome State Fault Refusal := .next (scrubLine raced s)

/-- SCRUB_STARVED: no pass has completed within 8 × PERIOD_S (Table 1.2). -/
def scrubStarved (s : State) : State :=
  if s.flag F.GCR_SCRUB_EN && !(s.flag F.GCR_SCRUB_STARVED) then
    let p := max 4 (s.fld F.GCR_SCRUB_PERIOD_S)
    ((s.reach (s.ecc.passAt + 8 * p * 1000 * psMs)).setFlag F.GCR_SCRUB_STARVED true).report 0x04 0
  else s

def execScrubStarved (s : State) : Host.Outcome State Fault Refusal := .next (scrubStarved s)

end Sys2Proof.Machine
end

