-- ==== Sys2Proof/Machine/VecRows.lean ====
section
/-!
DEFINITION. The vector instructions as commands: one instruction on an engine's working registers
(R278, R279, Tables 10.10, 10.12 and 10.13).
-/

namespace Sys2Proof.Machine

/-- Whether Hornet executes an instruction: every class but VSPLAT, within its spaces (Table 10.12,
R121). -/
def hornetTakes : VInstr → Bool
  | .valu fn .. => fn != 0x11
  | .vbr _ _ off => off != 0
  | .vlda _ i => i % 2 == 0
  | .vsta _ i => i % 2 == 0
  | .vgs vd _ => decide (vd ≤ 13)
  | i => !i.badSpace

/-- Whether a policy hook executes an instruction: VALU, VBR and END (Table 10.12). -/
def hookTakes : VInstr → Bool
  | .valu .. => true
  | .vbr _ _ off => off != 0
  | .stop => true
  | _ => false

/-- One vector instruction on an engine. An instruction the engine's check rejects never runs there, and
leaves the state as it is. -/
def vecCmd (e : Engine) (i : VInstr) (s : State) : State :=
  match e with
  | .hornet =>
    if hornetTakes i then
      let r := s.hrn.work.step (hornetCtx s) i
      let s := { s with hrn := { s.hrn with work := r.1 } }
      if r.2 then s.runFault else s
    else s
  | .hook n =>
    if hookTakes i then
      let w := s.hook n
      s.setHook n (w.step (hookCtx w) i).1
    else s

def execVld (e : Engine) (vd : VReg) (sp : Space) (index : Fin 256) (s : State) :
    Host.Outcome State Fault Refusal := .next (vecCmd e (.vld vd sp index) s)
def execVst (e : Engine) (vs1 : VReg) (sp : Space) (index : Fin 256) (s : State) :
    Host.Outcome State Fault Refusal := .next (vecCmd e (.vst vs1 sp index) s)
def execVmac (e : Engine) (ac : Acc) (vs1 : VReg) (vs2 : VReg) (neg : Bool) (s : State) :
    Host.Outcome State Fault Refusal := .next (vecCmd e (.vmac ac vs1 vs2 neg) s)
def execVmacl (e : Engine) (ac : Acc) (vs1 : VReg) (vs2 : VReg) (lane : Fin 32) (neg : Bool) (s : State) :
    Host.Outcome State Fault Refusal := .next (vecCmd e (.vmacl ac vs1 vs2 lane neg) s)
def execVmul (e : Engine) (ac : Acc) (vs1 : VReg) (vs2 : VReg) (s : State) :
    Host.Outcome State Fault Refusal := .next (vecCmd e (.vmul ac vs1 vs2) s)
def execVext (e : Engine) (vd : VReg) (ac : Acc) (shift : Fin 64) (s : State) :
    Host.Outcome State Fault Refusal := .next (vecCmd e (.vext vd ac shift) s)
def execVlda (e : Engine) (ac : Acc) (index : Fin 128) (s : State) :
    Host.Outcome State Fault Refusal := .next (vecCmd e (.vlda ac index) s)
def execVsta (e : Engine) (ac : Acc) (index : Fin 128) (s : State) :
    Host.Outcome State Fault Refusal := .next (vecCmd e (.vsta ac index) s)
def execVclra (e : Engine) (ac : Acc) (s : State) :
    Host.Outcome State Fault Refusal := .next (vecCmd e (.vclra ac) s)
def execVgs (e : Engine) (vd : VReg) (vs1 : VReg) (s : State) :
    Host.Outcome State Fault Refusal := .next (vecCmd e (.vgs vd vs1) s)
def execVnotch (e : Engine) (vd : VReg) (vs1 : VReg) (k : Fin 4) (sa : Fin 32) (s : State) :
    Host.Outcome State Fault Refusal := .next (vecCmd e (.vnotch vd vs1 k sa) s)
def execVmsel (e : Engine) (vd : VReg) (vs1 : VReg) (vs2 : VReg) (g : Fin 8) (s : State) :
    Host.Outcome State Fault Refusal := .next (vecCmd e (.vmsel vd vs1 vs2 g) s)
def execVperm (e : Engine) (vd : VReg) (vs1 : VReg) (index : Fin 256) (s : State) :
    Host.Outcome State Fault Refusal := .next (vecCmd e (.vperm vd vs1 index) s)
def execVbr (e : Engine) (c : VCond) (vs1 : VReg) (offset : Fin 4096) (s : State) :
    Host.Outcome State Fault Refusal := .next (vecCmd e (.vbr c vs1 offset) s)
def execEndVec (e : Engine) (s : State) :
    Host.Outcome State Fault Refusal := .next (vecCmd e (.stop) s)
def execVadd (e : Engine) (vd : VReg) (vs1 : VReg) (vs2 : VReg) (s : State) :
    Host.Outcome State Fault Refusal := .next (vecCmd e (.valu 0x00 vd vs1 vs2 0) s)
def execVsub (e : Engine) (vd : VReg) (vs1 : VReg) (vs2 : VReg) (s : State) :
    Host.Outcome State Fault Refusal := .next (vecCmd e (.valu 0x01 vd vs1 vs2 0) s)
def execVaddw (e : Engine) (vd : VReg) (vs1 : VReg) (vs2 : VReg) (s : State) :
    Host.Outcome State Fault Refusal := .next (vecCmd e (.valu 0x02 vd vs1 vs2 0) s)
def execVsubw (e : Engine) (vd : VReg) (vs1 : VReg) (vs2 : VReg) (s : State) :
    Host.Outcome State Fault Refusal := .next (vecCmd e (.valu 0x03 vd vs1 vs2 0) s)
def execVmin (e : Engine) (vd : VReg) (vs1 : VReg) (vs2 : VReg) (s : State) :
    Host.Outcome State Fault Refusal := .next (vecCmd e (.valu 0x04 vd vs1 vs2 0) s)
def execVmax (e : Engine) (vd : VReg) (vs1 : VReg) (vs2 : VReg) (s : State) :
    Host.Outcome State Fault Refusal := .next (vecCmd e (.valu 0x05 vd vs1 vs2 0) s)
def execVand (e : Engine) (vd : VReg) (vs1 : VReg) (vs2 : VReg) (s : State) :
    Host.Outcome State Fault Refusal := .next (vecCmd e (.valu 0x08 vd vs1 vs2 0) s)
def execVor (e : Engine) (vd : VReg) (vs1 : VReg) (vs2 : VReg) (s : State) :
    Host.Outcome State Fault Refusal := .next (vecCmd e (.valu 0x09 vd vs1 vs2 0) s)
def execVxor (e : Engine) (vd : VReg) (vs1 : VReg) (vs2 : VReg) (s : State) :
    Host.Outcome State Fault Refusal := .next (vecCmd e (.valu 0x0A vd vs1 vs2 0) s)
def execVcmplt (e : Engine) (vd : VReg) (vs1 : VReg) (vs2 : VReg) (s : State) :
    Host.Outcome State Fault Refusal := .next (vecCmd e (.valu 0x0D vd vs1 vs2 0) s)
def execVcmpeq (e : Engine) (vd : VReg) (vs1 : VReg) (vs2 : VReg) (s : State) :
    Host.Outcome State Fault Refusal := .next (vecCmd e (.valu 0x0E vd vs1 vs2 0) s)
def execVsel (e : Engine) (vd : VReg) (vs1 : VReg) (vs2 : VReg) (s : State) :
    Host.Outcome State Fault Refusal := .next (vecCmd e (.valu 0x0F vd vs1 vs2 0) s)
def execVabs (e : Engine) (vd : VReg) (vs1 : VReg) (s : State) :
    Host.Outcome State Fault Refusal := .next (vecCmd e (.valu 0x06 vd vs1 0 0) s)
def execVneg (e : Engine) (vd : VReg) (vs1 : VReg) (s : State) :
    Host.Outcome State Fault Refusal := .next (vecCmd e (.valu 0x07 vd vs1 0 0) s)
def execVmov (e : Engine) (vd : VReg) (vs1 : VReg) (s : State) :
    Host.Outcome State Fault Refusal := .next (vecCmd e (.valu 0x10 vd vs1 0 0) s)
def execVsra (e : Engine) (vd : VReg) (vs1 : VReg) (sh : Fin 64) (s : State) :
    Host.Outcome State Fault Refusal := .next (vecCmd e (.valu 0x0B vd vs1 0 sh) s)
def execVsll (e : Engine) (vd : VReg) (vs1 : VReg) (sh : Fin 64) (s : State) :
    Host.Outcome State Fault Refusal := .next (vecCmd e (.valu 0x0C vd vs1 0 sh) s)
/-- VSPLAT names g(n), n = 4 × vs1 + (vs2 & 3). -/
def execVsplat (e : Engine) (vd : VReg) (g : GReg) (s : State) :
    Host.Outcome State Fault Refusal := .next (vecCmd e (.valu 0x11 vd (g.val / 4) (g.val % 4) 0) s)

end Sys2Proof.Machine
end

