-- ==== Sys2Proof/Machine/Dispatch.lean ====
section
/-!
DEFINITION. The dispatch: one arm per command, each a direct call of the command's meaning.
-/

namespace Sys2Proof.Machine

def exec (i : Instr) (s : State) : Host.Outcome State Fault Refusal :=
  match i with
  | .registerWrite src off be data => Sys2Proof.Machine.execRegisterWrite src off be data s
  | .unmappedAccess off write => Sys2Proof.Machine.execUnmappedAccess off write s
  | .readLo src off => Sys2Proof.Machine.execReadLo src off s
  | .scrubLine raced => Sys2Proof.Machine.execScrubLine raced s
  | .scrubStarved => Sys2Proof.Machine.execScrubStarved s
  | .admissionPoint => Sys2Proof.Machine.execAdmissionPoint s
  | .commitPoint => Sys2Proof.Machine.execCommitPoint s
  | .lateLimit => Sys2Proof.Machine.execLateLimit s
  | .hornetRun => Sys2Proof.Machine.execHornetRun s
  | .swarmSelection => Sys2Proof.Machine.execSwarmSelection s
  | .frameAssembly bad => Sys2Proof.Machine.execFrameAssembly bad s
  | .sweepGridWrite src reg data => Sys2Proof.Machine.execSweepGridWrite src reg data s
  | .sweepsRun src => Sys2Proof.Machine.execSweepsRun src s
  | .sweepsStop src => Sys2Proof.Machine.execSweepsStop src s
  | .precharge => Sys2Proof.Machine.execPrecharge s
  | .readyCmd => Sys2Proof.Machine.execReadyCmd s
  | .deblock => Sys2Proof.Machine.execDeblock s
  | .block => Sys2Proof.Machine.execBlock s
  | .stop => Sys2Proof.Machine.execStop s
  | .reset => Sys2Proof.Machine.execReset s
  | .service => Sys2Proof.Machine.execService s
  | .deblockAt => Sys2Proof.Machine.execDeblockAt s
  | .deblockAtDue => Sys2Proof.Machine.execDeblockAtDue s
  | .testGo arm => Sys2Proof.Machine.execTestGo arm s
  | .hookLoad arm => Sys2Proof.Machine.execHookLoad arm s
  | .hookLoadDone arm => Sys2Proof.Machine.execHookLoadDone arm s
  | .refresh arm => Sys2Proof.Machine.execRefresh arm s
  | .refreshDone arm => Sys2Proof.Machine.execRefreshDone arm s
  | .tblStarved arm => Sys2Proof.Machine.execTblStarved arm s
  | .clr arm slot => Sys2Proof.Machine.execClr arm slot s
  | .dcalStart => Sys2Proof.Machine.execDcalStart s
  | .echoReq arm lane => Sys2Proof.Machine.execEchoReq arm lane s
  | .echoRep arm lane line rtt => Sys2Proof.Machine.execEchoRep arm lane line rtt s
  | .echoTimeout arm lane => Sys2Proof.Machine.execEchoTimeout arm lane s
  | .dcalPassEnd => Sys2Proof.Machine.execDcalPassEnd s
  | .dcalStarved => Sys2Proof.Machine.execDcalStarved s
  | .bypassReq arm lane lslot fault rid => Sys2Proof.Machine.execBypassReq arm lane lslot fault rid s
  | .pbypReq arm lane lslot fault rid => Sys2Proof.Machine.execPbypReq arm lane lslot fault rid s
  | .selfBlocked arm lane lslot fault rid => Sys2Proof.Machine.execSelfBlocked arm lane lslot fault rid s
  | .rfxFill arm lane => Sys2Proof.Machine.execRfxFill arm lane s
  | .upstreamFrame arm lane half line track => Sys2Proof.Machine.execUpstreamFrame arm lane half line track s
  | .eyeRep arm lane line => Sys2Proof.Machine.execEyeRep arm lane line s
  | .idReq arm lane => Sys2Proof.Machine.execIdReq arm lane s
  | .idRec arm lane line => Sys2Proof.Machine.execIdRec arm lane line s
  | .idReqRetry arm lane => Sys2Proof.Machine.execIdReqRetry arm lane s
  | .execEnWrite src v => Sys2Proof.Machine.execExecEnWrite src v s
  | .publish => Sys2Proof.Machine.execPublish s
  | .tmaxClr => Sys2Proof.Machine.execTmaxClr s
  | .hrnBankLoad => Sys2Proof.Machine.execHrnBankLoad s
  | .hrnBankCheckDone => Sys2Proof.Machine.execHrnBankCheckDone s
  | .hrnParSwap => Sys2Proof.Machine.execHrnParSwap s
  | .hrnParCheckDone => Sys2Proof.Machine.execHrnParCheckDone s
  | .mdgSwtrig c => Sys2Proof.Machine.execMdgSwtrig c s
  | .mdgTrigger c => Sys2Proof.Machine.execMdgTrigger c s
  | .conversionStart c => Sys2Proof.Machine.execConversionStart c s
  | .conversionResult c p n => Sys2Proof.Machine.execConversionResult c p n s
  | .mdgDataRead c => Sys2Proof.Machine.execMdgDataRead c s
  | .swapDue c => Sys2Proof.Machine.execSwapDue c s
  | .swapStart c => Sys2Proof.Machine.execSwapStart c s
  | .swapEnd c trimFail => Sys2Proof.Machine.execSwapEnd c trimFail s
  | .calStarved c => Sys2Proof.Machine.execCalStarved c s
  | .mdgRearm c => Sys2Proof.Machine.execMdgRearm c s
  | .lcwVisit slot => Sys2Proof.Machine.execLcwVisit slot s
  | .bringup src p => Sys2Proof.Machine.execBringup src p s
  | .down src p => Sys2Proof.Machine.execDown src p s
  | .impGo src p => Sys2Proof.Machine.execImpGo src p s
  | .eqLoad => Sys2Proof.Machine.execEqLoad s
  | .clockDone p => Sys2Proof.Machine.execClockDone p s
  | .clockTimeout p => Sys2Proof.Machine.execClockTimeout p s
  | .phaseDone p lane pass => Sys2Proof.Machine.execPhaseDone p lane pass s
  | .phaseTimeout p lane => Sys2Proof.Machine.execPhaseTimeout p lane s
  | .alignDone p lane slips => Sys2Proof.Machine.execAlignDone p lane slips s
  | .alignTimeout p lane => Sys2Proof.Machine.execAlignTimeout p lane s
  | .handshakeDone p lane => Sys2Proof.Machine.execHandshakeDone p lane s
  | .handshakeTimeout p lane => Sys2Proof.Machine.execHandshakeTimeout p lane s
  | .frameDone p lane => Sys2Proof.Machine.execFrameDone p lane s
  | .frameTimeout p lane => Sys2Proof.Machine.execFrameTimeout p lane s
  | .laneLol p lane cause line => Sys2Proof.Machine.execLaneLol p lane cause line s
  | .ckLoss p => Sys2Proof.Machine.execCkLoss p s
  | .requalDone arm lane => Sys2Proof.Machine.execRequalDone arm lane s
  | .eyeScanStart p lane => Sys2Proof.Machine.execEyeScanStart p lane s
  | .eyeScanDone p lane errors => Sys2Proof.Machine.execEyeScanDone p lane errors s
  | .eyeStarved p lane => Sys2Proof.Machine.execEyeStarved p lane s
  | .timebaseStep src => Sys2Proof.Machine.execTimebaseStep src s
  | .relock src => Sys2Proof.Machine.execRelock src s
  | .pllLock => Sys2Proof.Machine.execPllLock s
  | .outputRelease => Sys2Proof.Machine.execOutputRelease s
  | .rateWrite v => Sys2Proof.Machine.execRateWrite v s
  | .rateSlew => Sys2Proof.Machine.execRateSlew s
  | .syncRx domB peer interval => Sys2Proof.Machine.execSyncRx domB peer interval s
  | .syncTimeout domB => Sys2Proof.Machine.execSyncTimeout domB s
  | .invA => Sys2Proof.Machine.execInvA s
  | .invB => Sys2Proof.Machine.execInvB s
  | .txtsArrive => Sys2Proof.Machine.execTxtsArrive s
  | .txtsHdrRead => Sys2Proof.Machine.execTxtsHdrRead s
  | .eventFire n => Sys2Proof.Machine.execEventFire n s
  | .evTWrite n v => Sys2Proof.Machine.execEvTWrite n v s
  | .evEnable n => Sys2Proof.Machine.execEvEnable n s
  | .capture src => Sys2Proof.Machine.execCapture src s
  | .ppsRise => Sys2Proof.Machine.execPpsRise s
  | .ppsFall => Sys2Proof.Machine.execPpsFall s
  | .coreRun n => Sys2Proof.Machine.execCoreRun n s
  | .coreStop n => Sys2Proof.Machine.execCoreStop n s
  | .halt n => Sys2Proof.Machine.execHalt n s
  | .resume n => Sys2Proof.Machine.execResume n s
  | .coreHalted n => Sys2Proof.Machine.execCoreHalted n s
  | .interrupt n => Sys2Proof.Machine.execInterrupt n s
  | .storeDrain n => Sys2Proof.Machine.execStoreDrain n s
  | .wfiWake n => Sys2Proof.Machine.execWfiWake n s
  | .evwaitWake n => Sys2Proof.Machine.execEvwaitWake n s
  | .addk n rd rs1 imm => Sys2Proof.Machine.execAddk n rd rs1 imm s
  | .ltk n rd rs1 imm => Sys2Proof.Machine.execLtk n rd rs1 imm s
  | .ltku n rd rs1 imm => Sys2Proof.Machine.execLtku n rd rs1 imm s
  | .andk n rd rs1 imm => Sys2Proof.Machine.execAndk n rd rs1 imm s
  | .ork n rd rs1 imm => Sys2Proof.Machine.execOrk n rd rs1 imm s
  | .xork n rd rs1 imm => Sys2Proof.Machine.execXork n rd rs1 imm s
  | .hik n rd rs1 imm => Sys2Proof.Machine.execHik n rd rs1 imm s
  | .pcrel n rd imm => Sys2Proof.Machine.execPcrel n rd imm s
  | .call n rd imm => Sys2Proof.Machine.execCall n rd imm s
  | .jmpr n rd rs1 imm => Sys2Proof.Machine.execJmpr n rd rs1 imm s
  | .brEq n rs1 rs2 off => Sys2Proof.Machine.execBrEq n rs1 rs2 off s
  | .brNe n rs1 rs2 off => Sys2Proof.Machine.execBrNe n rs1 rs2 off s
  | .brLt n rs1 rs2 off => Sys2Proof.Machine.execBrLt n rs1 rs2 off s
  | .brGe n rs1 rs2 off => Sys2Proof.Machine.execBrGe n rs1 rs2 off s
  | .brLtu n rs1 rs2 off => Sys2Proof.Machine.execBrLtu n rs1 rs2 off s
  | .brGeu n rs1 rs2 off => Sys2Proof.Machine.execBrGeu n rs1 rs2 off s
  | .ldB n rd rs1 imm => Sys2Proof.Machine.execLdB n rd rs1 imm s
  | .ldBu n rd rs1 imm => Sys2Proof.Machine.execLdBu n rd rs1 imm s
  | .ldH n rd rs1 imm => Sys2Proof.Machine.execLdH n rd rs1 imm s
  | .ldHu n rd rs1 imm => Sys2Proof.Machine.execLdHu n rd rs1 imm s
  | .ldW n rd rs1 imm => Sys2Proof.Machine.execLdW n rd rs1 imm s
  | .stB n rs1 rs2 off => Sys2Proof.Machine.execStB n rs1 rs2 off s
  | .stH n rs1 rs2 off => Sys2Proof.Machine.execStH n rs1 rs2 off s
  | .stW n rs1 rs2 off => Sys2Proof.Machine.execStW n rs1 rs2 off s
  | .ldR n rd rs1 imm => Sys2Proof.Machine.execLdR n rd rs1 imm s
  | .stC n rd rs1 rs2 => Sys2Proof.Machine.execStC n rd rs1 rs2 s
  | .add n rd rs1 rs2 => Sys2Proof.Machine.execAdd n rd rs1 rs2 s
  | .sub n rd rs1 rs2 => Sys2Proof.Machine.execSub n rd rs1 rs2 s
  | .and n rd rs1 rs2 => Sys2Proof.Machine.execAnd n rd rs1 rs2 s
  | .or n rd rs1 rs2 => Sys2Proof.Machine.execOr n rd rs1 rs2 s
  | .xor n rd rs1 rs2 => Sys2Proof.Machine.execXor n rd rs1 rs2 s
  | .shl n rd rs1 rs2 => Sys2Proof.Machine.execShl n rd rs1 rs2 s
  | .shr n rd rs1 rs2 => Sys2Proof.Machine.execShr n rd rs1 rs2 s
  | .sar n rd rs1 rs2 => Sys2Proof.Machine.execSar n rd rs1 rs2 s
  | .shlk n rd rs1 sh => Sys2Proof.Machine.execShlk n rd rs1 sh s
  | .shrk n rd rs1 sh => Sys2Proof.Machine.execShrk n rd rs1 sh s
  | .sark n rd rs1 sh => Sys2Proof.Machine.execSark n rd rs1 sh s
  | .lt n rd rs1 rs2 => Sys2Proof.Machine.execLt n rd rs1 rs2 s
  | .ltu n rd rs1 rs2 => Sys2Proof.Machine.execLtu n rd rs1 rs2 s
  | .min n rd rs1 rs2 => Sys2Proof.Machine.execMin n rd rs1 rs2 s
  | .max n rd rs1 rs2 => Sys2Proof.Machine.execMax n rd rs1 rs2 s
  | .clz n rd rs1 => Sys2Proof.Machine.execClz n rd rs1 s
  | .adds n rd rs1 rs2 => Sys2Proof.Machine.execAdds n rd rs1 rs2 s
  | .subs n rd rs1 rs2 => Sys2Proof.Machine.execSubs n rd rs1 rs2 s
  | .mul n rd rs1 rs2 => Sys2Proof.Machine.execMul n rd rs1 rs2 s
  | .mulhs n rd rs1 rs2 => Sys2Proof.Machine.execMulhs n rd rs1 rs2 s
  | .mulhu n rd rs1 rs2 => Sys2Proof.Machine.execMulhu n rd rs1 rs2 s
  | .mulq n rd rs1 rs2 sh => Sys2Proof.Machine.execMulq n rd rs1 rs2 sh s
  | .sat n rd rs1 sh => Sys2Proof.Machine.execSat n rd rs1 sh s
  | .abs n rd rs1 => Sys2Proof.Machine.execAbs n rd rs1 s
  | .divs n rd rs1 rs2 => Sys2Proof.Machine.execDivs n rd rs1 rs2 s
  | .divu n rd rs1 rs2 => Sys2Proof.Machine.execDivu n rd rs1 rs2 s
  | .mods n rd rs1 rs2 => Sys2Proof.Machine.execMods n rd rs1 rs2 s
  | .modu n rd rs1 rs2 => Sys2Proof.Machine.execModu n rd rs1 rs2 s
  | .fence n => Sys2Proof.Machine.execFence n s
  | .ifence n => Sys2Proof.Machine.execIfence n s
  | .retx n => Sys2Proof.Machine.execRetx n s
  | .trap n sh => Sys2Proof.Machine.execTrap n sh s
  | .wfi n => Sys2Proof.Machine.execWfi n s
  | .mfs n rd sh => Sys2Proof.Machine.execMfs n rd sh s
  | .mts n rs1 sh => Sys2Proof.Machine.execMts n rs1 sh s
  | .signal n rs1 => Sys2Proof.Machine.execSignal n rs1 s
  | .brk n => Sys2Proof.Machine.execBrk n s
  | .waitsweep n rd sh => Sys2Proof.Machine.execWaitsweep n rd sh s
  | .commit n rd sh => Sys2Proof.Machine.execCommit n rd sh s
  | .tstamp n rd sh => Sys2Proof.Machine.execTstamp n rd sh s
  | .bmov n rd rs1 rs2 => Sys2Proof.Machine.execBmov n rd rs1 rs2 s
  | .bcrc n rd rs1 rs2 sh => Sys2Proof.Machine.execBcrc n rd rs1 rs2 sh s
  | .tsrch n rd rs1 rs2 sh => Sys2Proof.Machine.execTsrch n rd rs1 rs2 sh s
  | .qpush n rd rs1 rs2 pop => Sys2Proof.Machine.execQpush n rd rs1 rs2 pop s
  | .qpop n rd rs1 rs2 => Sys2Proof.Machine.execQpop n rd rs1 rs2 s
  | .evwait n rd rs1 => Sys2Proof.Machine.execEvwait n rd rs1 s
  | .evset n rs1 rs2 => Sys2Proof.Machine.execEvset n rs1 rs2 s
  | .vld e vd sp index => Sys2Proof.Machine.execVld e vd sp index s
  | .vst e vs1 sp index => Sys2Proof.Machine.execVst e vs1 sp index s
  | .vmac e ac vs1 vs2 neg => Sys2Proof.Machine.execVmac e ac vs1 vs2 neg s
  | .vmacl e ac vs1 vs2 lane neg => Sys2Proof.Machine.execVmacl e ac vs1 vs2 lane neg s
  | .vmul e ac vs1 vs2 => Sys2Proof.Machine.execVmul e ac vs1 vs2 s
  | .vext e vd ac shift => Sys2Proof.Machine.execVext e vd ac shift s
  | .vlda e ac index => Sys2Proof.Machine.execVlda e ac index s
  | .vsta e ac index => Sys2Proof.Machine.execVsta e ac index s
  | .vclra e ac => Sys2Proof.Machine.execVclra e ac s
  | .vgs e vd vs1 => Sys2Proof.Machine.execVgs e vd vs1 s
  | .vnotch e vd vs1 k sa => Sys2Proof.Machine.execVnotch e vd vs1 k sa s
  | .vmsel e vd vs1 vs2 g => Sys2Proof.Machine.execVmsel e vd vs1 vs2 g s
  | .vperm e vd vs1 index => Sys2Proof.Machine.execVperm e vd vs1 index s
  | .vbr e c vs1 offset => Sys2Proof.Machine.execVbr e c vs1 offset s
  | .endVec e => Sys2Proof.Machine.execEndVec e s
  | .vadd e vd vs1 vs2 => Sys2Proof.Machine.execVadd e vd vs1 vs2 s
  | .vsub e vd vs1 vs2 => Sys2Proof.Machine.execVsub e vd vs1 vs2 s
  | .vaddw e vd vs1 vs2 => Sys2Proof.Machine.execVaddw e vd vs1 vs2 s
  | .vsubw e vd vs1 vs2 => Sys2Proof.Machine.execVsubw e vd vs1 vs2 s
  | .vmin e vd vs1 vs2 => Sys2Proof.Machine.execVmin e vd vs1 vs2 s
  | .vmax e vd vs1 vs2 => Sys2Proof.Machine.execVmax e vd vs1 vs2 s
  | .vabs e vd vs1 => Sys2Proof.Machine.execVabs e vd vs1 s
  | .vneg e vd vs1 => Sys2Proof.Machine.execVneg e vd vs1 s
  | .vand e vd vs1 vs2 => Sys2Proof.Machine.execVand e vd vs1 vs2 s
  | .vor e vd vs1 vs2 => Sys2Proof.Machine.execVor e vd vs1 vs2 s
  | .vxor e vd vs1 vs2 => Sys2Proof.Machine.execVxor e vd vs1 vs2 s
  | .vsra e vd vs1 sh => Sys2Proof.Machine.execVsra e vd vs1 sh s
  | .vsll e vd vs1 sh => Sys2Proof.Machine.execVsll e vd vs1 sh s
  | .vcmplt e vd vs1 vs2 => Sys2Proof.Machine.execVcmplt e vd vs1 vs2 s
  | .vcmpeq e vd vs1 vs2 => Sys2Proof.Machine.execVcmpeq e vd vs1 vs2 s
  | .vsel e vd vs1 vs2 => Sys2Proof.Machine.execVsel e vd vs1 vs2 s
  | .vmov e vd vs1 => Sys2Proof.Machine.execVmov e vd vs1 s
  | .vsplat e vd g => Sys2Proof.Machine.execVsplat e vd g s
  | .taskDone t => Sys2Proof.Machine.execTaskDone t s
  | .taskRun t => Sys2Proof.Machine.execTaskRun t s
  | .taskHold t => Sys2Proof.Machine.execTaskHold t s
  | .taskStop t => Sys2Proof.Machine.execTaskStop t s
  | .cycWdg t => Sys2Proof.Machine.execCycWdg t s
  | .tagRelease tag => Sys2Proof.Machine.execTagRelease tag s
  | .hivHev task flag => Sys2Proof.Machine.execHivHev task flag s
  | .queueWr => Sys2Proof.Machine.execQueueWr s
  | .queueRd => Sys2Proof.Machine.execQueueRd s
  | .flush => Sys2Proof.Machine.execFlush s
  | .flushDone => Sys2Proof.Machine.execFlushDone s
  | .taskWr => Sys2Proof.Machine.execTaskWr s
  | .taskRd => Sys2Proof.Machine.execTaskRd s
  | .clrf => Sys2Proof.Machine.execClrf s
  | .snap => Sys2Proof.Machine.execSnap s
  | .init => Sys2Proof.Machine.execInit s
  | .initDone => Sys2Proof.Machine.execInitDone s
  | .offer n => Sys2Proof.Machine.execOffer n s
  | .hivTake n => Sys2Proof.Machine.execHivTake n s
  | .yield n => Sys2Proof.Machine.execYield n s
  | .hivGwWrite g v => Sys2Proof.Machine.execHivGwWrite g v s
  | .recordDone => Sys2Proof.Machine.execRecordDone s
  | .trig => Sys2Proof.Machine.execTrig s
  | .arm => Sys2Proof.Machine.execArm s
  | .lossClr => Sys2Proof.Machine.execLossClr s
  | .mothModeChange en mode => Sys2Proof.Machine.execMothModeChange en mode s
  | .trmStart e => Sys2Proof.Machine.execTrmStart e s
  | .trmResume e => Sys2Proof.Machine.execTrmResume e s
  | .trmFinish e => Sys2Proof.Machine.execTrmFinish e s
  | .trmAbort e => Sys2Proof.Machine.execTrmAbort e s
  | .outFull e => Sys2Proof.Machine.execOutFull e s
  | .trmJobEnd e => Sys2Proof.Machine.execTrmJobEnd e s
  | .beatInstant => Sys2Proof.Machine.execBeatInstant s
  | .beatRx lines arrivalNs tracks => Sys2Proof.Machine.execBeatRx lines arrivalNs tracks s
  | .twinLoss => Sys2Proof.Machine.execTwinLoss s
  | .takeover => Sys2Proof.Machine.execTakeover s
  | .handover => Sys2Proof.Machine.execHandover s
  | .handoverSwitch => Sys2Proof.Machine.execHandoverSwitch s
  | .release => Sys2Proof.Machine.execRelease s
  | .actInChange low => Sys2Proof.Machine.execActInChange low s
  | .twnConflict => Sys2Proof.Machine.execTwnConflict s
  | .roleLineRelease => Sys2Proof.Machine.execRoleLineRelease s
  | .soloTimeout => Sys2Proof.Machine.execSoloTimeout s
  | .autoReturn => Sys2Proof.Machine.execAutoReturn s
  | .safeInChange n high => Sys2Proof.Machine.execSafeInChange n high s
  | .demand f => Sys2Proof.Machine.execDemand f s
  | .discrepancy f => Sys2Proof.Machine.execDiscrepancy f s
  | .testPulseStart b => Sys2Proof.Machine.execTestPulseStart b s
  | .testPulseEnd b => Sys2Proof.Machine.execTestPulseEnd b s
  | .resetFunction f => Sys2Proof.Machine.execResetFunction f s
  | .mtsReset => Sys2Proof.Machine.execMtsReset s
  | .resetDecision => Sys2Proof.Machine.execResetDecision s
  | .trip => Sys2Proof.Machine.execTrip s
  | .unlock key => Sys2Proof.Machine.execUnlock key s
  | .mtsConfirm v => Sys2Proof.Machine.execMtsConfirm v s
  | .readbackFault output => Sys2Proof.Machine.execReadbackFault output s
  | .mantisInternalFault => Sys2Proof.Machine.execMantisInternalFault s
  | .bsRun => Sys2Proof.Machine.execBsRun s
  | .bsStop => Sys2Proof.Machine.execBsStop s
  | .bsdemWrite v => Sys2Proof.Machine.execBsdemWrite v s
  | .bsWindow => Sys2Proof.Machine.execBsWindow s
  | .safetyMsgRx port slot => Sys2Proof.Machine.execSafetyMsgRx port slot s
  | .smTimeout => Sys2Proof.Machine.execSmTimeout s
  | .statusMsgSend => Sys2Proof.Machine.execStatusMsgSend s
  | .mtsInj v => Sys2Proof.Machine.execMtsInj v s
  | .ccdSwrep v => Sys2Proof.Machine.execCcdSwrep v s
  | .rctWrite n v => Sys2Proof.Machine.execRctWrite n v s
  | .statClear hi v => Sys2Proof.Machine.execStatClear hi v s
  | .ccdLogRead => Sys2Proof.Machine.execCcdLogRead s
  | .ccdInjArm v => Sys2Proof.Machine.execCcdInjArm v s
  | .presentChange low => Sys2Proof.Machine.execPresentChange low s
  | .powerGood => Sys2Proof.Machine.execPowerGood s
  | .powerFail => Sys2Proof.Machine.execPowerFail s
  | .vinExcursion mv ma => Sys2Proof.Machine.execVinExcursion mv ma s
  | .latchTrip => Sys2Proof.Machine.execLatchTrip s
  | .bankTestDone bank failed => Sys2Proof.Machine.execBankTestDone bank failed s
  | .ready => Sys2Proof.Machine.execReady s
  | .imageLoadDone => Sys2Proof.Machine.execImageLoadDone s
  | .hostGo => Sys2Proof.Machine.execHostGo s
  | .confirm => Sys2Proof.Machine.execConfirm s
  | .confirmTimeout => Sys2Proof.Machine.execConfirmTimeout s
  | .reboot => Sys2Proof.Machine.execReboot s
  | .flashErase => Sys2Proof.Machine.execFlashErase s
  | .flashProg => Sys2Proof.Machine.execFlashProg s
  | .flashDone verifyFail => Sys2Proof.Machine.execFlashDone verifyFail s
  | .tempExcursion quarterDeg => Sys2Proof.Machine.execTempExcursion quarterDeg s
  | .bakLow pct cell => Sys2Proof.Machine.execBakLow pct cell s
  | .hostWindowWrite off be data => Sys2Proof.Machine.execHostWindowWrite off be data s
  | .dmaStart c => Sys2Proof.Machine.execDmaStart c s
  | .dmaAbort c => Sys2Proof.Machine.execDmaAbort c s
  | .descriptorEnd c => Sys2Proof.Machine.execDescriptorEnd c s
  | .bmeClear cfg => Sys2Proof.Machine.execBmeClear cfg s
  | .flr => Sys2Proof.Machine.execFlr s
  | .pcieCompletion tag err data => Sys2Proof.Machine.execPcieCompletion tag err data s
  | .completionTimeout tag => Sys2Proof.Machine.execCompletionTimeout tag s
  | .msixSend v => Sys2Proof.Machine.execMsixSend v s
  | .doorbell bits => Sys2Proof.Machine.execDoorbell bits s
  | .fwint v => Sys2Proof.Machine.execFwint v s
  | .ethRxFrame port frame => Sys2Proof.Machine.execEthRxFrame port frame s
  | .ethTxEntry port => Sys2Proof.Machine.execEthTxEntry port s
  | .safetyFrameTx port => Sys2Proof.Machine.execSafetyFrameTx port s
  | .ethLink port => Sys2Proof.Machine.execEthLink port s
  | .pwmPeriodStart ch => Sys2Proof.Machine.execPwmPeriodStart ch s
  | .pwmCompare ch => Sys2Proof.Machine.execPwmCompare ch s
  | .pwmFlt low => Sys2Proof.Machine.execPwmFlt low s
  | .bootRefresh ch => Sys2Proof.Machine.execBootRefresh ch s
  | .blockLock port => Sys2Proof.Machine.execBlockLock port s
  | .factoryTestMode => Sys2Proof.Machine.execFactoryTestMode s
  | .illegal n => Sys2Proof.Machine.execIllegal n s
  | .bootstrapRefreshEnd ch => Sys2Proof.Machine.execBootstrapRefreshEnd ch s
  | .rcrcErr arm lane word => Sys2Proof.Machine.execRcrcErr arm lane word s
  | .gapUnit arm lane line => Sys2Proof.Machine.execGapUnit arm lane line s

end Sys2Proof.Machine
end

