-- ==== Sys2Proof/Machine/Time.lean ====
section
/-!
DEFINITION. The passing of time while no command waits.
-/

namespace Sys2Proof.Machine

/-- One cycle of Firefly's PLL, in ps (R233). -/
def pllCyclePs : Nat := 640

/-- With no command waiting the device idles for one PLL cycle: the time advances and Hive's flush engine
makes one round if it runs (R304: a round takes at most 4 ns). Everything else that happens at an instant
is a command of its own. -/
def idle (s : State) : State := flushRound { s with now := s.now + pllCyclePs }

end Sys2Proof.Machine
end

