-- ==== Sys2Proof/Safety.lean ====
section
/-!
DEFINITION. The predicates that statements about the device share: the canonical form of its tables,
what a core needs to run its next instruction undisturbed, and what a command leaves unchanged.
-/

namespace Sys2Proof.Machine

/-! ### The canonical form -/

/-- A rising list of keys. -/
def rising : List Nat → Bool
  | [] => true
  | [_] => true
  | a :: b :: r => decide (a < b) && rising (b :: r)

/-- The memory keeps its canonical form: addresses rise, and no entry is what an unlisted byte reads. -/
def Memory.wf (m : Tab Byte) : Bool := twf (fun _ => 0) m

/-- Every table of the state that the units share is in its canonical form; the item slots in use and
the service tags rise, and no slot lies outside the pool. -/
def State.canon (s : State) : Bool :=
  twf regReset s.regs && twf regReset s.eff && Memory.wf s.mem && twf (fun _ => 0xFF) s.flash &&
  twf (fun _ => none) s.hiLatch && twf (fun _ => none) s.hiStage &&
  twf (fun _ => {}) s.cells && twf (fun _ => {}) s.arms && twf (fun _ => {}) s.hooks &&
  twf (fun _ => {}) s.convs && twf (fun _ => {}) s.pairs && twf (fun _ => {}) s.lcw &&
  twf (fun _ => {}) s.cores && twf (fun _ => {}) s.tasks && twf (fun _ => {}) s.trm &&
  twf (fun _ => {}) s.eth && rising s.hive.used && s.hive.used.all (fun i => decide (i < poolSize)) &&
  rising (s.hive.svc.map (fun x => x.1))

/-- Whether a write of the register at an offset does more, or is held to more, than its fields' access codes
say (Table 0.6): the commands of the register map, values that are checked or that wait, pairs, the channels of the
PWM, and the memories behind a window. -/
def actsOnWrite (o : Nat) : Bool :=
  let among := fun (a b step : Nat) (l : List Nat) =>
    decide (a ≤ o) && decide (o < b) && l.contains ((o - a) % step)
  isHiOfPair o || pairLo o ||
  [R.FFY_CTL, R.FFY_RATE, R.FFY_PTP, R.FFY_DOM, R.CRK_CTL, R.CRK_PERIOD, R.CRK_EPOCH_LO, R.CRK_WIN, R.CRK_STATE,
    R.CRK_CMD, R.SWM_CAL, R.HRN_CTL, R.HRN_BANK, R.HRN_PAR, R.MDG_SWTRIG, R.MDG_REARM, R.LCW_CTL,
    R.DFY_EQ_CTL].contains o ||
  [R.HIV_CTL, R.HIV_DONE, R.HIV_HEV, R.HIV_QCMD, R.HIV_TCMD, R.HIV_AUDIT, R.HIV_YIELD_SELF, R.MTH_CTL, R.TWN_CTL,
    R.TWN_CFG, R.TWN_BULK_LEN, R.MTS_CMD, R.MTS_CONFIRM, R.MTS_BS, R.MTS_BSDEM, R.MTS_INJ, R.CCD_SWREP,
    R.CCD_STAT0, R.CCD_STAT1, R.CCD_INJ, R.BTL_CTL, R.BTL_HALT, R.HST_DOORBELL, R.HST_FWINT, R.PWM_CTL, R.PWM_FLT,
    R.MOD_CTL, R.MOD_BOOT, R.MOD_FCMD].contains o ||
  among 0x10100 0x10200 0x10 [0, 8] || among 0x10200 0x20000 0x10 [0] ||
  among 0x40000 0x58000 0x4000 [0, 4, 0x14, 0x38, 0x3C, 0x40] || among 0x60000 0x66000 4 [0] ||
  among 0x84000 0xA0000 4 [0] || among 0xA0100 0xA0300 0x20 [0, 8] || among 0xB0100 0xB0500 0x10 [0] ||
  among 0xC0000 0xCE000 0x2000 ([0] ++ (List.range 8).map (fun l => 0x10C + 0x20 * l)) ||
  among 0x100080 0x1000C0 4 [0] || among 0x100100 0x100180 0x10 [8] || among 0x130000 0x140000 0x20 [4] ||
  among R.MTS_PARAM (R.MTS_PARAM + 256) 4 [0] || among R.MTS_BSMEM 0x160000 4 [0] ||
  among 0x160100 0x160140 4 [0] || among 0x170100 0x170200 0x20 [0x14] ||
  among 0x171000 0x171200 0x20 [0, 4, 8, 0xC, 0x10, 0x1C] || among 0x180100 0x180180 0x10 [4] ||
  among 0x190000 0x190800 0x400 [0, 0xC, 0x10, 0x14, 0x18] || among 0x1A0100 0x1B0000 4 [0]

/-- Whether a read of the register at an offset does more than give its value (R10, R11). -/
def readActs (o : Nat) : Bool :=
  readPairLo o || [R.FFY_TXTS_HDR, R.HIV_TAKE_SELF, R.CCD_LOG0].contains o ||
  (decide (0xA0100 ≤ o) && decide (o < 0xA0300) && o % 0x20 == 0xC) ||
  (decide (0x100100 ≤ o) && decide (o < 0x100180) && o % 0x10 == 0)

/-! ### A core at an instruction -/

/-- No store or start of a stopped core, no task mode and no safe image waits to take effect (R253, R291,
R293): the instruction that runs next has no effect but its own. -/
def State.noneWaits (s : State) : Bool :=
  (List.range 8).all (fun m => ((s.core m).run || (s.core m).sb.isEmpty) && !(s.core m).startDue) &&
  (s.running || s.crk.commitDue.isSome ||
    (List.range 16).all (fun t => (s.task t).pend.isNone && (!(s.task t).safeDue || s.taskHeld t)))

/-- Whether a read of memory meets neither a corrected nor a poisoned word. -/
def State.clean (s : State) (a n : Nat) : Bool :=
  !(s.poisoned a n) && !(s.ecc.ce.any (fun w => decide (w * 8 < a + n) && decide (a < w * 8 + 8)))

/-- Core n stands at an instruction boundary, executes, and fetches its next instruction: it may
execute there, and the word is cached or is read without an error. -/
def State.atInstr (s : State) (n : Nat) : Bool :=
  let pc := (s.core n).pc.toNat
  (s.core n).ready && mayExec n pc &&
    (n == coreBs || (tget (fun _ => none) (s.core n).icache pc).isSome || s.clean pc 4) && s.noneWaits

/-- No store waits in the core's buffer. -/
def State.drained (s : State) (n : Nat) : Bool := (s.core n).sb.isEmpty

/-! ### What an instruction leaves unchanged -/

/-- Only core n differs, and the count of free values drawn, which a fill of a full instruction cache
advances: no part of the device. -/
def onlyCore (n : Nat) (s t : State) : Prop :=
  { t with cores := s.cores, free := s.free } = s ∧ ∀ m, m ≠ n → t.core m = s.core m

/-- Of core n, only general registers, the PC, STATUS and the instruction cache differ. -/
def coreKept (n : Nat) (s t : State) : Prop :=
  { t.core n with g := (s.core n).g, pc := (s.core n).pc, status := (s.core n).status
                  icache := (s.core n).icache } = s.core n

/-- An instruction of core n ends with `v` in rd (g0 discards it) and goes on at the next one; no
other register, flag or part of the device changes. -/
def retires (n rd : Nat) (v : Word) (s t : State) : Prop :=
  onlyCore n s t ∧ coreKept n s t ∧ (t.core n).status = (s.core n).status ∧
  (t.core n).pc = (s.core n).pc + 4 ∧
  t.g n rd = (if rd = 0 then 0 else v) ∧ ∀ r, r ≠ rd → t.g n r = s.g n r

/-- The same for an instruction that sets STATUS.QSAT when it saturates (R258). -/
def retiresSat (n rd : Nat) (v : Word) (sat : Bool) (s t : State) : Prop :=
  onlyCore n s t ∧ coreKept n s t ∧
  (t.core n).status = (if sat then (s.core n).status ||| 8 else (s.core n).status) ∧
  (t.core n).pc = (s.core n).pc + 4 ∧
  t.g n rd = (if rd = 0 then 0 else v) ∧ ∀ r, r ≠ rd → t.g n r = s.g n r

/-- An instruction of core n jumps: rd (unless g0) takes the address of the next instruction. -/
def jumps (n rd : Nat) (target : Word) (s t : State) : Prop :=
  onlyCore n s t ∧ coreKept n s t ∧ (t.core n).status = (s.core n).status ∧
  (t.core n).pc = target ∧
  t.g n rd = (if rd = 0 then 0 else (s.core n).pc + 4) ∧ ∀ r, r ≠ rd → t.g n r = s.g n r

/-- An instruction of core n that acts beyond its core ends with `v` in rd and goes on at the next one. -/
def retiredWith (n rd : Nat) (v : Word) (s t : State) : Prop :=
  (t.core n).pc = (s.core n).pc + 4 ∧ (t.core n).wait = .none ∧
  t.g n rd = (if rd = 0 then 0 else v) ∧ ∀ r, r ≠ rd → t.g n r = s.g n r

/-- Core n enters its handler (R260) with a cause and a value; the general registers, the interrupt
registers and the rest of the device stay. -/
def entersHandler (n : Nat) (cause : Word) (eval : Word) (pc : Word) (s t : State) : Prop :=
  onlyCore n s t ∧
  (t.core n).epc = (s.core n).pc ∧ (t.core n).cause = cause ∧ (t.core n).eval = eval ∧
  (t.core n).pc = pc ∧
  (t.core n).st stIE = false ∧ (t.core n).st stPIE = (s.core n).st stIE ∧
  (t.core n).st stXACT = true ∧ (t.core n).st stQSAT = (s.core n).st stQSAT ∧
  (t.core n).resv = none ∧ (t.core n).wait = .none ∧
  (∀ r, t.g n r = s.g n r) ∧ (t.core n).xbase = (s.core n).xbase ∧
  (t.core n).ien = (s.core n).ien ∧ (t.core n).ipend = (s.core n).ipend ∧
  (t.core n).scratch = (s.core n).scratch ∧ (t.core n).sb = (s.core n).sb

/-! ### Vector engines -/

/-- The working registers of an engine. -/
def State.engine (s : State) (e : Engine) : VecSt :=
  match e with
  | .hornet => s.hrn.work
  | .hook n => s.hook n

/-- What an engine reads that a run does not change. -/
def State.engineCtx (s : State) (e : Engine) : VCtx :=
  match e with
  | .hornet => hornetCtx s
  | .hook n => hookCtx (s.hook n)

/-- The engine's run goes on with the instruction that comes next. -/
def State.vecOpen (s : State) (e : Engine) : Bool := !(s.engine e).ended && (s.engine e).skip == 0

/-- Of the device, only the working registers of an engine differ; the instruction is counted. -/
def vecOnly (e : Engine) (s t : State) : Prop :=
  { t with hrn := s.hrn, hooks := s.hooks } = s ∧ { t.hrn with work := s.hrn.work } = s.hrn ∧
  (∀ e', e' ≠ e → t.engine e' = s.engine e') ∧ (t.engine e).instrs = (s.engine e).instrs + 1

/-- The clamp to the signed range of `w` bits, said with minimum and maximum. -/
def clampTo (w : Nat) (x : Int) : Int := max (-2 ^ (w - 1)) (min (2 ^ (w - 1) - 1) x)

/-- Whether a value lies outside the signed range of `w` bits. -/
def outside (w : Nat) (x : Int) : Prop := x < -2 ^ (w - 1) ∨ 2 ^ (w - 1) - 1 < x

/-! ### Memory -/

/-- Every byte of memory outside `n` bytes from `a` on reads as before. -/
def memKept (a n : Nat) (s t : State) : Prop := ∀ k, ¬(a ≤ k ∧ k < a + n) → t.rd8 k = s.rd8 k

/-- The commands of the lanes, time, twin, safety and module families that store nothing in memory. -/
def storesNothing : Instr → Bool
  | .scrubLine _ | .scrubStarved | .sweepGridWrite .. | .sweepsRun _ | .sweepsStop _ | .lateLimit => true
  | .halt _ | .resume _ | .wfiWake _ | .evwaitWake _ | .init => true
  | .idReq .. | .idReqRetry .. | .idRec .. | .eyeRep .. | .eyeScanStart .. | .eyeScanDone .. => true
  | .eyeStarved .. | .bringup .. | .down .. | .impGo .. | .clockDone _ | .clockTimeout _ => true
  | .phaseDone .. | .phaseTimeout .. | .alignDone .. | .alignTimeout .. | .handshakeDone .. => true
  | .handshakeTimeout .. | .frameDone .. | .frameTimeout .. | .laneLol .. | .ckLoss _ => true
  | .timebaseStep _ | .relock _ | .pllLock | .outputRelease | .rateWrite _ | .rateSlew => true
  | .syncRx .. | .syncTimeout _ | .invA | .invB | .eventFire _ | .capture _ | .ppsRise | .ppsFall => true
  | .trig | .lossClr | .beatInstant | .twinLoss | .handover | .actInChange _ | .twnConflict => true
  | .roleLineRelease | .soloTimeout | .autoReturn => true
  | .safeInChange .. | .demand _ | .discrepancy _ | .testPulseStart _ | .testPulseEnd _ => true
  | .resetFunction _ | .mtsReset | .resetDecision | .trip | .unlock _ | .readbackFault _ => true
  | .mantisInternalFault | .bsStop | .bsdemWrite _ | .bsWindow | .smTimeout => true
  | .presentChange _ | .vinExcursion .. | .tempExcursion _ | .bakLow .. | .latchTrip | .hostGo => true
  | .bankTestDone .. | .confirm | .confirmTimeout | .flashErase | .flashProg | .flashDone _ => true
  | _ => false

/-- The output list of a task names distinct words of the program memory outside its image block, all of it is
read without an error, and the memory takes the stores. -/
def State.plainImage (s : State) (k : Nat) : Prop :=
  let b := s.image k
  let dst := fun j => (s.rd32 (b + 0x240 + 4 * j)).toNat
  inProgram b 1024 = true ∧ s.ecc.ce = [] ∧ s.ecc.ue = [] ∧
  (∀ a, a < 0x02000000 → s.bankOpen a = true) ∧ s.taskCore k < 8 ∧
  ∀ j, j < s.outWords k → dst j % 4 = 0 ∧ inProgram (dst j) 4 = true ∧ dstOk (dst j) = true ∧
    (dst j + 4 ≤ b ∨ b + 1024 ≤ dst j) ∧ ∀ i, i < j → dst i ≠ dst j

/-- Of the program memory, the words of a task's output list hold those at an offset of its image block, and
every other byte reads as before. -/
def outputsWritten (k ofs : Nat) (s t : State) : Prop :=
  let b := s.image k
  let dst := fun j => (s.rd32 (b + 0x240 + 4 * j)).toNat
  (∀ j, j < s.outWords k → t.rd32 (dst j) = s.rd32 (b + ofs + 4 * j)) ∧
  ∀ a, a < 0x02000000 → (∀ j, j < s.outWords k → ¬(dst j ≤ a ∧ a < dst j + 4)) → t.rd8 a = s.rd8 a

/-! ### Mantis -/

/-- The test pulses agree with their outputs: a channel whose output is low is held and its pulse has begun,
and never are both outputs low (R355). -/
def State.pulsesAgree (s : State) : Bool :=
  (!s.mts.tpaLow || (s.mts.heldA && s.mts.tpaAt.isSome)) &&
  (!s.mts.tpbLow || (s.mts.heldB && s.mts.tpbAt.isSome)) && !(s.mts.tpaLow && s.mts.tpbLow)

/-! ### Registers, lanes and reports -/

/-- Every register reads as before, but for those listed. -/
def regsKept (l : List Nat) (s t : State) : Prop := ∀ a, a ∉ l → t.reg a = s.reg a

/-- The registers a report to Cicada, or the Mantis demand that comes of one, may change: those of Cicada, the cause
and the status of Mantis, the pending vectors, and the captures of ERR_N falling and of the trip (Table 9.2). -/
def reportReg (a : Nat) : Bool :=
  (decide (0x160000 ≤ a) && decide (a < 0x170000)) || a == R.MTS_CAUSE || a == R.MTS_STAT ||
  (decide (R.HST_PBA ≤ a) && decide (a < R.HST_PBA + 8)) ||
  (decide (R.FFY_CAP_CTL ≤ a) && decide (a < R.FFY_CAP_CTL + 0x80))

/-- The same while something is reported. -/
def regsTold (l : List Nat) (s t : State) : Prop :=
  ∀ a, a ∉ l → reportReg a = false → t.reg a = s.reg a

/-- The state with what a report may change beside the registers, and the registers themselves, taken
from another state. -/
def State.untold (t s : State) : State :=
  { t with
    regs := s.regs, cores := s.cores, ccd := s.ccd, mts := s.mts, crk := s.crk, pwm := s.pwm
    mth := s.mth, twn := s.twn }

/-- Every lane but one is as before. -/
def otherLanes (p l : Nat) (s t : State) : Prop :=
  ∀ k, k ≠ laneKey p l → tget (fun _ => {}) t.dfy.lanes k = tget (fun _ => {}) s.dfy.lanes k

/-- Of the device, only one lane and the registers listed differ. -/
def onlyLane (p l : Nat) (regs : List Nat) (s t : State) : Prop :=
  { t with dfy := s.dfy, regs := s.regs } = s ∧ { t.dfy with lanes := s.dfy.lanes } = s.dfy ∧
  otherLanes p l s t ∧ regsKept regs s t

/-- Of the device, only one arm's engine and the registers listed differ. -/
def onlyArm (n : Nat) (regs : List Nat) (s t : State) : Prop :=
  { t with arms := s.arms, regs := s.regs } = s ∧ (∀ m, m ≠ n → t.arm m = s.arm m) ∧
  regsKept regs s t

/-- Of the device, only the registers listed differ. -/
def onlyRegs (regs : List Nat) (s t : State) : Prop :=
  { t with regs := s.regs } = s ∧ regsKept regs s t

/-- What a demand of Mantis leaves (R358): its source is latched, and where it was not, the actions of
its byte hold: block-all (bit 0), the trip outputs (bits [7:4]), and the report on MTS_TRIP. -/
def demanded (src act : Nat) (s t : State) : Prop :=
  src ∈ t.mts.demands ∧
  (src ∉ s.mts.demands →
    (act.testBit 0 = true → t.flag F.MTS_STAT_BLOCK_ALL = true) ∧
    (∀ k, k < 4 → act.testBit (4 + k) = true → t.flagBit F.MTS_STAT_TRIP k = true) ∧
    (src ≠ 0x14 → t.flag (lineStat 0x26) = true) ∧
    (s.mts.demands = [] → t.fld F.MTS_CAUSE_SRC = src % 64))

end Sys2Proof.Machine
end

