-- ==== Sys2Proof/Certificates/Slice0/Obligations.lean ====
section
/-!
DEFINITION. The statements about the device, for the provers: what each command does, what it leaves
unchanged, and what every step keeps. Numbered rules R<n> are those of the spec's chapters.
-/

open Sys2Proof Sys2Proof.Machine

/-! ### The machine as a whole -/

/-- The device takes the command at the front of its queue: a step runs it on the state with the rest of
the queue; with an empty queue one PLL cycle (640 ps) passes, in which Hive's flush engine makes a round
where it runs, and nothing else happens (log entries "An empty queue" and R304's rounds: the model's choice). -/
def Obligations.StepRunsTheFrontCommand : Prop :=
  (∀ (c : Instr) (r : List Instr) (s : State), s.pending = c :: r →
    step s = exec c { s with pending := r }) ∧
  (∀ s : State, s.pending = [] → step s = .next (idle s) ∧
    (s.hive.flush = none → step s = .next { s with now := s.now + 640 }))

/-- Every command, in every state and whatever its operands, answers a next state and leaves the queue as
it is: no command adds to it or takes from it. The one write the spec gives no effect (R376: an injection
through MTS_INJ in factory test mode) is left out, in both forms it can take. -/
def Obligations.CommandsLeaveTheQueue : Prop :=
  (∀ (c : Instr) (s t : State), exec c s = .next t → t.pending = s.pending) ∧
  ∀ (c : Instr) (s : State),
    (s.flag F.MTS_STAT_FTM = true → ∀ v, c ≠ .mtsInj v) →
    (s.flag F.MTS_STAT_FTM = true → ∀ src off data, off.toNat / 4 * 4 = R.MTS_INJ →
      c ≠ .registerWrite src off 0xF data) →
    ∃ t, exec c s = .next t ∧ t.pending = s.pending

/-- Every step keeps the canonical form that `State.canon` names: of the registers, the settings in effect, the
latches of register pairs, memory and boot flash, the cells, arms, hooks, converters, pairs and Lacewing inputs, the cores'
table, tasks, Termite engines and Ethernet ports, and of the item slots and service tags in use: where these
are equal in what they hold they are equal data. The tables inside Dragonfly, the other inner tables of a unit
and those inside a core or an engine are not in it. -/
def Obligations.StepKeepsCanonicalForm : Prop :=
  ∀ s t : State, s.canon = true → step s = .next t → t.canon = true

/-- What reset leaves: every register reads its reset value, no core runs, memory reads 0, no command
waits, no test pulse runs, and the tables have their canonical form; the operating state is Blocked, sweeps are stopped and
block-all is asserted. -/
def Obligations.ResetState : Prop :=
  State.reset.canon = true ∧ State.reset.mem = [] ∧ State.reset.pending = [] ∧
  (∀ a, State.reset.reg a = regReset a) ∧ State.reset.opState = stBlocked ∧
  State.reset.running = false ∧ State.reset.flag F.MTS_STAT_BLOCK_ALL = true ∧
  State.reset.pulsesAgree = true ∧ State.reset.period = 2000 ∧ (∀ n, (State.reset.core n).run = false) ∧ ∀ a, State.reset.rd8 a = 0

/-! ### Scalar instructions of the cores (chapter 10) -/

/-- Tables 10.1, 10.5 and 10.6, R257: the instructions with a constant and the ALU functions without a
saturation flag write their result, leave every other register and flag, and go on at the next
instruction; g0 discards the result. Shifts by a register use its bits [4:0]; the high products are
exact. -/
def Obligations.ScalarResults : Prop :=
  (∀ (n : AnyCore) (rd rs1 : GReg) (imm : BitVec 16) (off : BitVec 21) (s : State),
      s.atInstr n = true →
      let a := s.g n rs1
      let run := fun (i : Instr) (v : Word) => ∃ t, exec i s = .next t ∧ retires n rd v s t
      run (.addk n rd rs1 imm) (a + imm.signExtend 32) ∧
      run (.ltk n rd rs1 imm) (if a.toInt < imm.toInt then 1 else 0) ∧
      run (.ltku n rd rs1 imm) (if a.toNat < (imm.signExtend 32).toNat then 1 else 0) ∧
      run (.andk n rd rs1 imm) (a &&& imm.zeroExtend 32) ∧
      run (.ork n rd rs1 imm) (a ||| imm.zeroExtend 32) ∧
      run (.xork n rd rs1 imm) (a ^^^ imm.zeroExtend 32) ∧
      run (.hik n rd rs1 imm) (imm ++ a.extractLsb' 0 16) ∧
      run (.pcrel n rd off) ((s.core n).pc + BitVec.ofInt 32 (4 * off.toInt))) ∧
  (∀ (n : AnyCore) (rd rs1 rs2 : GReg) (sh : Fin 64) (s : State), s.atInstr n = true →
      let a := s.g n rs1
      let b := s.g n rs2
      let run := fun (i : Instr) (v : Word) => ∃ t, exec i s = .next t ∧ retires n rd v s t
      run (.add n rd rs1 rs2) (a + b) ∧ run (.sub n rd rs1 rs2) (a - b) ∧
      run (.and n rd rs1 rs2) (a &&& b) ∧ run (.or n rd rs1 rs2) (a ||| b) ∧
      run (.xor n rd rs1 rs2) (a ^^^ b) ∧
      run (.shl n rd rs1 rs2) (a <<< (b.toNat % 32)) ∧
      run (.shr n rd rs1 rs2) (a >>> (b.toNat % 32)) ∧
      run (.sar n rd rs1 rs2) (a.sshiftRight (b.toNat % 32)) ∧
      (sh.val ≤ 31 → run (.shlk n rd rs1 sh) (a <<< sh.val) ∧ run (.shrk n rd rs1 sh) (a >>> sh.val) ∧
        run (.sark n rd rs1 sh) (a.sshiftRight sh.val)) ∧
      run (.lt n rd rs1 rs2) (if a.toInt < b.toInt then 1 else 0) ∧
      run (.ltu n rd rs1 rs2) (if a.toNat < b.toNat then 1 else 0) ∧
      run (.min n rd rs1 rs2) (BitVec.ofInt 32 (min a.toInt b.toInt)) ∧
      run (.max n rd rs1 rs2) (BitVec.ofInt 32 (max a.toInt b.toInt)) ∧
      run (.clz n rd rs1) (BitVec.ofNat 32 (if a = 0 then 32 else 31 - a.toNat.log2)) ∧
      run (.mul n rd rs1 rs2) (BitVec.ofInt 32 (a.toInt * b.toInt)) ∧
      run (.mulhs n rd rs1 rs2) (BitVec.ofInt 32 (a.toInt * b.toInt / 2 ^ 32)) ∧
      run (.mulhu n rd rs1 rs2) (BitVec.ofNat 32 (a.toNat * b.toNat / 2 ^ 32)))

/-- R258, Tables 10.6 and 10.8: the saturating functions and the divisions clamp to the signed range,
set STATUS.QSAT when they saturate (or meet a special case with QSAT), leave the rest of STATUS, and
go on: division never raises an exception. MTS of STATUS clears QSAT. -/
def Obligations.SaturatingInstructionsRetire : Prop :=
  ∀ (n : AnyCore) (rd rs1 rs2 : GReg) (sh : Fin 64) (s : State), s.atInstr n = true →
    let a := s.g n rs1
    let b := s.g n rs2
    let run := fun (i : Instr) (v : Int) (sat : Bool) =>
      ∃ t, exec i s = .next t ∧ retiresSat n rd (BitVec.ofInt 32 v) sat s t
    let clamp := fun (lo hi x : Int) => max lo (min hi x)
    let sat32 := fun (i : Instr) (x : Int) =>
      run i (clamp (-2 ^ 31) (2 ^ 31 - 1) x) (decide (x < -2 ^ 31 ∨ 2 ^ 31 - 1 < x))
    let p := a.toInt * b.toInt
    sat32 (.adds n rd rs1 rs2) (a.toInt + b.toInt) ∧
    sat32 (.subs n rd rs1 rs2) (a.toInt - b.toInt) ∧
    sat32 (.abs n rd rs1) a.toInt.natAbs ∧
    (sh.val ≤ 62 → sat32 (.mulq n rd rs1 rs2 sh)
      (if sh.val = 0 then p else (p + 2 ^ (sh.val - 1)) / 2 ^ sh.val)) ∧
    (sh.val ≤ 30 → run (.sat n rd rs1 sh) (clamp (-2 ^ sh.val) (2 ^ sh.val - 1) a.toInt)
      (decide (a.toInt < -2 ^ sh.val ∨ 2 ^ sh.val - 1 < a.toInt))) ∧
    (b ≠ 0 → ¬(a = 0x80000000 ∧ b = 0xFFFFFFFF) →
      run (.divs n rd rs1 rs2) (Int.tdiv a.toInt b.toInt) false ∧
      run (.mods n rd rs1 rs2) (Int.tmod a.toInt b.toInt) false) ∧
    (b ≠ 0 → run (.divu n rd rs1 rs2) (a.toNat / b.toNat : Nat) false ∧
      run (.modu n rd rs1 rs2) (a.toNat % b.toNat : Nat) false) ∧
    (a = 0x80000000 ∧ b = 0xFFFFFFFF →
      run (.divs n rd rs1 rs2) (2 ^ 31 - 1) true ∧ run (.mods n rd rs1 rs2) 0 true) ∧
    (b = 0 →
      run (.divs n rd rs1 rs2) (if a.toInt < 0 then -2 ^ 31 else 2 ^ 31 - 1) true ∧
      run (.divu n rd rs1 rs2) (2 ^ 32 - 1) true ∧
      run (.mods n rd rs1 rs2) a.toInt false ∧ run (.modu n rd rs1 rs2) a.toInt false) ∧
    (s.drained n = true → ∃ t, exec (.mts n rs1 0) s = .next t ∧ (t.core n).st stQSAT = a.getLsbD stQSAT)

/-- Table 10.5, R257: CALL and JMPR link and jump, and the branches jump where their condition holds;
a target of JMPR is a multiple of 4. -/
def Obligations.JumpsAndBranches : Prop :=
  ∀ (n : AnyCore) (rd rs1 rs2 : GReg) (imm : BitVec 16) (off : BitVec 21) (s : State),
    s.atInstr n = true →
    let a := s.g n rs1
    let b := s.g n rs2
    let pc := (s.core n).pc
    let jump := fun (i : Instr) (r : Nat) (target : Word) => ∃ t, exec i s = .next t ∧ jumps n r target s t
    let br := fun (i : Instr) (taken : Prop) =>
      (taken → jump i 0 (pc + BitVec.ofInt 32 (4 * imm.toInt))) ∧ (¬taken → jump i 0 (pc + 4))
    jump (.call n rd off) rd (pc + BitVec.ofInt 32 (4 * off.toInt)) ∧
    ((a + imm.signExtend 32).toNat % 4 = 0 → jump (.jmpr n rd rs1 imm) rd (a + imm.signExtend 32)) ∧
    br (.brEq n rs1 rs2 imm) (a = b) ∧ br (.brNe n rs1 rs2 imm) (a ≠ b) ∧
    br (.brLt n rs1 rs2 imm) (a.toInt < b.toInt) ∧ br (.brGe n rs1 rs2 imm) (b.toInt ≤ a.toInt) ∧
    br (.brLtu n rs1 rs2 imm) (a.toNat < b.toNat) ∧ br (.brGeu n rs1 rs2 imm) (b.toNat ≤ a.toNat)

/-- Tables 10.3 and 10.5, R255, R264: a load of an application core from memory, with no store waiting to
its word, writes the extended bytes of memory to rd and changes nothing else. LD.R reads a word as LD.W
does and sets the reservation (R268). A load that buffered stores overlap takes the youngest such store's
bytes, when that store holds all of it; else it waits until they have drained, which is counted, and reads
memory (R265). A byte of a bank that is not in use (R23) is free. A word load from register space waits
until the buffer is empty (R266) and gives the register as it reads; where no block is it gives 0 and is
told (R28). R362: the safety core's loads and stores in its local memory act on the word at once; a store
changes only its bytes. -/
def Obligations.LoadsReadMemory : Prop :=
  (∀ (n : Core) (rd rs1 : GReg) (imm : BitVec 16) (s : State),
      let m : AnyCore := ⟨n.val, by omega⟩
      let a := (s.g n rs1 + imm.signExtend 32).toNat
      let ok := fun (sz : Nat) => a % sz = 0 ∧ memReadable a = true ∧ s.clean a sz = true ∧
        (s.core n).sb.all (fun e => !(e.overlaps a sz)) = true
      let run := fun (i : Instr) (v : Word) => ∃ t, exec i s = .next t ∧ retires n rd v s t
      s.atInstr n = true →
      (ok 1 → run (.ldB m rd rs1 imm) ((s.ld8 a).signExtend 32) ∧
        run (.ldBu m rd rs1 imm) ((s.ld8 a).zeroExtend 32)) ∧
      (ok 2 → run (.ldH m rd rs1 imm) ((s.ld8 (a + 1) ++ s.ld8 a).signExtend 32) ∧
        run (.ldHu m rd rs1 imm) ((s.ld8 (a + 1) ++ s.ld8 a).zeroExtend 32)) ∧
      (ok 4 →
        let w : Word := s.ld8 (a + 3) ++ s.ld8 (a + 2) ++ s.ld8 (a + 1) ++ s.ld8 a
        run (.ldW m rd rs1 imm) w ∧
        ∃ t, exec (.ldR m rd rs1 imm) s = .next t ∧ onlyCore n s t ∧
          (t.core n).resv = some a ∧ t.g n rd = (if rd.val = 0 then 0 else w) ∧
          (∀ r, r ≠ rd.val → t.g n r = s.g n r) ∧ (t.core n).pc = (s.core n).pc + 4 ∧
          (t.core n).status = (s.core n).status ∧ (t.core n).sb = (s.core n).sb) ∧
      (∀ e : SbEntry,
        let held := fun (sz : Nat) => a % sz = 0 ∧ memReadable a = true ∧ e.holds a sz = true ∧
          ((s.core n).sb.filter (SbEntry.overlaps a sz)).getLast? = some e
        let part := fun (k : Nat) => e.data.extractLsb' (8 * (a % 4 + k)) 8
        (held 1 → run (.ldB m rd rs1 imm) ((part 0).signExtend 32) ∧
          run (.ldBu m rd rs1 imm) ((part 0).zeroExtend 32)) ∧
        (held 2 → run (.ldH m rd rs1 imm) ((part 1 ++ part 0).signExtend 32) ∧
          run (.ldHu m rd rs1 imm) ((part 1 ++ part 0).zeroExtend 32)) ∧
        (held 4 → run (.ldW m rd rs1 imm) e.data)) ∧
      -- partly held by the youngest store that it overlaps: the load waits until those stores have drained
      (let byte := fun (k : Nat) =>
          match ((s.core n).sb.filter (fun e =>
            decide (e.addr = a / 4 * 4) && e.mask.getLsbD (a % 4 + k))).getLast? with
          | some e => e.data.extractLsb' (8 * (a % 4 + k)) 8
          | none => s.ld8 (a + k)
        let waits := fun (sz : Nat) => a % sz = 0 ∧ memReadable a = true ∧ a < 0x08000000 ∧
          s.bankOpen a = true ∧ s.poisoned a sz = false ∧ s.flag F.CCD_INJ_ARM = false ∧
          (s.core n).sb.length ≤ 8 ∧ (∀ e ∈ (s.core n).sb, e.addr % 4 = 0 ∧ e.addr < 0x08000000 ∧
            s.poisoned (e.addr / 8 * 8) 8 = false) ∧
          ∃ e, ((s.core n).sb.filter (SbEntry.overlaps a sz)).getLast? = some e ∧ e.holds a sz = false
        let stall := F.BTL_STALL_FWD_STALL.up (0x20 * n.val)
        let late := fun (i : Instr) (sz : Nat) (v : Word) => ∃ t, exec i s = .next t ∧ retiredWith n rd v s t ∧
          t.fld stall = min 65535 (s.fld stall + 1) ∧
          (t.core n).sb.all (fun e => !(e.overlaps a sz)) = true
        (waits 2 → late (.ldH m rd rs1 imm) 2 ((byte 1 ++ byte 0).signExtend 32) ∧
          late (.ldHu m rd rs1 imm) 2 ((byte 1 ++ byte 0).zeroExtend 32)) ∧
        (waits 4 → late (.ldW m rd rs1 imm) 4 (byte 3 ++ byte 2 ++ byte 1 ++ byte 0))) ∧
      -- register space
      (∀ off, regOff a = some off → a % 4 = 0 →
        (∀ e ∈ (s.core n).sb, e.addr % 4 = 0 ∧ e.addr < 0x08000000) →
        (0x1C0000 ≤ off → ∃ t, exec (.ldW m rd rs1 imm) s = .next t ∧ retiredWith n rd 0 s t ∧
          t.flag (lineStat 0x02) = true) ∧
        (off < 0x1C0000 → (s.core n).sb.length ≤ 8 → readActs off = false →
          tget (fun _ => none) s.hiLatch off = none → ∃ t, exec (.ldW m rd rs1 imm) s = .next t ∧
            retiredWith n rd ((drainAll n s).view (srcOf n) off) s t ∧ (t.core n).sb = [] ∧
            (s.drained n = true → retires n rd (s.view (srcOf n) off) s t)))) ∧
  (∀ (rd rs1 rs2 : GReg) (imm : BitVec 16) (s : State),
      let n : AnyCore := 8
      let a := (s.g n rs1 + imm.signExtend 32).toNat
      let w := s.bsWord a
      let ld := fun (i : Instr) (v : Word) => ∃ t, exec i s = .next t ∧ retires n rd v s t
      let st := fun (i : Instr) (sz : Nat) => ∃ t, exec i s = .next t ∧
        (∀ k, k < 4 → (t.bsWord a).extractLsb' (8 * k) 8 =
          if a % 4 ≤ k ∧ k < a % 4 + sz then (s.g n rs2).extractLsb' (8 * (k - a % 4)) 8
          else w.extractLsb' (8 * k) 8) ∧
        (∀ b, b / 4 ≠ a / 4 → t.bsWord b = s.bsWord b) ∧ t.regs = s.regs ∧
        (t.core n).pc = (s.core n).pc + 4 ∧ (∀ r, t.g n r = s.g n r) ∧ (∀ k, t.rd8 k = s.rd8 k)
      s.atInstr n = true → a < 0x8000 →
      ld (.ldB n rd rs1 imm) ((w.extractLsb' (8 * (a % 4)) 8).signExtend 32) ∧
      ld (.ldBu n rd rs1 imm) ((w.extractLsb' (8 * (a % 4)) 8).zeroExtend 32) ∧
      st (.stB n rs1 rs2 imm) 1 ∧
      (a % 2 = 0 → ld (.ldH n rd rs1 imm) ((w.extractLsb' (8 * (a % 4)) 16).signExtend 32) ∧
        ld (.ldHu n rd rs1 imm) ((w.extractLsb' (8 * (a % 4)) 16).zeroExtend 32) ∧
        st (.stH n rs1 rs2 imm) 2) ∧
      (a % 4 = 0 → ld (.ldW n rd rs1 imm) w ∧ st (.stW n rs1 rs2 imm) 4))

/-- R264: a store of an application core enters its buffer as the youngest entry, with the bytes at its
address; it changes no memory and no register until it drains. R264, R269, Table 10.3: STORE_DRAIN writes
the oldest entry's bytes to memory and takes the entry out; every other byte of memory stays. A bank that
is not in use (R23) takes none. Two entries that together cover an aligned 8-byte word drain as one write,
which clears the word's poison; a part of a poisoned word is discarded and told. An entry to register
space drains as the write of that register.  R267, R268: ST.C with an empty store buffer writes its word
and answers 0 when the reservation holds; otherwise it answers 1 and leaves memory. Either way the
reservation is gone. A bank that is not in use (R23) takes no byte. -/
def Obligations.StoresAndTheirDrain : Prop :=
  (∀ (n : Core) (rs1 rs2 : GReg) (off : BitVec 16) (s : State),
      let m : AnyCore := ⟨n.val, by omega⟩
      let a := (s.g n rs1 + off.signExtend 32).toNat
      let run := fun (i : Instr) (sz : Nat) (mask : BitVec 4) =>
        a % sz = 0 → memWritable a = true ∨ (sz = 4 ∧ (regOff a).isSome = true) →
        ∃ t e, exec i s = .next t ∧ onlyCore n s t ∧ (t.core n).sb = (s.core n).sb ++ [e] ∧
          e.addr = a / 4 * 4 ∧ e.mask = mask <<< (a % 4) ∧
          (∀ k, k < sz → e.data.extractLsb' (8 * (a % 4 + k)) 8 = (s.g n rs2).extractLsb' (8 * k) 8) ∧
          (t.core n).pc = (s.core n).pc + 4 ∧ (∀ r, t.g n r = s.g n r) ∧
          (t.core n).status = (s.core n).status ∧ (t.core n).resv = (s.core n).resv
      s.atInstr n = true → (s.core n).sb.length < 8 →
      run (.stB m rs1 rs2 off) 1 1 ∧ run (.stH m rs1 rs2 off) 2 3 ∧ run (.stW m rs1 rs2 off) 4 15) ∧
  (∀ (n : Core) (e : SbEntry) (r : List SbEntry) (s : State),
      (s.core n).sb = e :: r → (∀ f, r.head? = some f → e.merges f = false) →
      e.addr % 4 = 0 → e.addr < 0x08000000 → s.poisoned (e.addr / 8 * 8) 8 = false →
      s.noneWaits = true →
      ∃ t, exec (.storeDrain n) s = .next t ∧ (t.core n).sb = r ∧
        (∀ k, k < 4 → t.rd8 (e.addr + k) =
          if e.mask.getLsbD k && s.bankOpen e.addr then e.data.extractLsb' (8 * k) 8 else s.rd8 (e.addr + k)) ∧
        memKept e.addr 4 s t ∧ (∀ r, t.g n r = s.g n r) ∧ (t.core n).pc = (s.core n).pc) ∧
  (∀ (n : Core) (e f : SbEntry) (r : List SbEntry) (s : State), s.noneWaits = true → e.addr % 4 = 0 →
      f.addr % 4 = 0 → let w := e.addr / 8 * 8
      ((s.core n).sb = e :: f :: r → e.merges f = true → e.addr < 0x08000000 →
        ∃ t, exec (.storeDrain n) s = .next t ∧ (t.core n).sb = r ∧ memKept w 8 s t ∧
          (s.bankOpen w = true → ∀ k, k < 4 → t.rd8 (e.addr + k) = e.data.extractLsb' (8 * k) 8 ∧
            t.rd8 (f.addr + k) = f.data.extractLsb' (8 * k) 8) ∧
          (s.flag F.CCD_INJ_ARM = false → t.poisoned w 8 = false) ∧
          (∀ r, t.g n r = s.g n r) ∧ (t.core n).pc = (s.core n).pc) ∧
      ((s.core n).sb = e :: r → (∀ x, r.head? = some x → e.merges x = false) → e.mask ≠ 0 →
        e.addr < 0x08000000 → s.poisoned w 8 = true →
        ∃ t, exec (.storeDrain n) s = .next t ∧ (t.core n).sb = r ∧ (∀ k, t.rd8 k = s.rd8 k) ∧
          t.ecc = s.ecc ∧ t.flag (lineStat 0x1B) = true ∧ (∀ r, t.g n r = s.g n r) ∧
          (t.core n).pc = (s.core n).pc) ∧
      (∀ off : BitVec 24, (s.core n).sb = e :: r → e.addr = 0x10000000 + off.toNat → off.toNat < 0x800000 →
        off.toNat ≠ R.MTS_INJ →
        exec (.storeDrain n) s =
          exec (.registerWrite (.core n) off 0xF e.data) (s.setCore n { s.core n with sb := r }))) ∧
  (∀ (n : Core) (rd rs1 rs2 : GReg) (s : State),
      let m : AnyCore := ⟨n.val, by omega⟩
      let a := (s.g n rs1).toNat
      s.atInstr n = true → s.drained n = true → a % 4 = 0 → memWritable a = true → a < 0x08000000 →
      s.poisoned (a / 8 * 8) 8 = false →
      ∃ t, exec (.stC m rd rs1 rs2) s = .next t ∧ (t.core n).resv = none ∧
        (t.core n).pc = (s.core n).pc + 4 ∧ memKept a 4 s t ∧
        (∀ r, r ≠ rd.val → t.g n r = s.g n r) ∧
        (((s.core n).resv = some a → t.g n rd = 0 ∧
            ∀ k, k < 4 → t.rd8 (a + k) =
              if s.bankOpen a then (s.g n rs2).extractLsb' (8 * k) 8 else s.rd8 (a + k)) ∧
         ((s.core n).resv ≠ some a → t.g n rd = (if rd.val = 0 then 0 else 1) ∧
            ∀ k, t.rd8 k = s.rd8 k)))

/-- Tables 10.2 and 10.7, R252, R261, R266: the system instructions with an empty store buffer.
SIGNAL, on B0 to B7, sets IPEND bit 3 of each core named in rs1, and no other bit. -/
def Obligations.SystemInstructions : Prop :=
  ∀ (n : AnyCore) (rd rs1 : GReg) (sh : Fin 64) (s : State), s.atInstr n = true → s.drained n = true →
    let c := s.core n
    let a := s.g n rs1
    (∃ t, exec (.fence n) s = .next t ∧ jumps n 0 (c.pc + 4) s t) ∧
    (∃ t, exec (.ifence n) s = .next t ∧ jumps n 0 (c.pc + 4) s t ∧ (t.core n).icache = []) ∧
    (∃ t, exec (.retx n) s = .next t ∧ onlyCore n s t ∧ (t.core n).pc = c.epc &&& 0xFFFFFFFC ∧
      (t.core n).st stIE = c.st stPIE ∧ (t.core n).st stXACT = false ∧
      (t.core n).st stPIE = c.st stPIE ∧ (t.core n).st stQSAT = c.st stQSAT ∧
      (t.core n).resv = none ∧ ∀ r, t.g n r = s.g n r) ∧
    (∃ t, exec (.wfi n) s = .next t ∧
      (c.intrs ≠ 0 → jumps n 0 (c.pc + 4) s t) ∧
      (c.intrs = 0 → onlyCore n s t ∧ (t.core n).wait = .wfi ∧ (t.core n).pc = c.pc ∧
        ∀ r, t.g n r = s.g n r)) ∧
    (∀ v, c.sysReg n sh = some v → ∃ t, exec (.mfs n rd sh) s = .next t ∧ retires n rd v s t) ∧
    (sh.val ≤ 8 → ∃ t, exec (.mts n rs1 sh) s = .next t ∧ onlyCore n s t ∧
      (t.core n).pc = c.pc + 4 ∧ (∀ r, t.g n r = s.g n r) ∧
      (t.core n).cause = c.cause ∧ (t.core n).eval = c.eval ∧
      (t.core n).status = (if sh.val = 0 then a &&& 0xF else c.status) ∧
      (t.core n).epc = (if sh.val = 1 then a else c.epc) ∧
      (t.core n).xbase = (if sh.val = 4 then a &&& 0xFFFFFF00 else c.xbase) ∧
      (t.core n).ien = (if sh.val = 5 then a &&& 0xFF else c.ien) ∧
      (t.core n).scratch = (if sh.val = 8 then a else c.scratch) ∧
      (t.core n).ipend = (if sh.val = 6 then
        (c.ipend &&& ~~~a) ||| (if (s.hcore n).offer.isSome then 1 else 0) else c.ipend)) ∧
    (n.val < 8 → ∃ t, exec (.signal n rs1) s = .next t ∧ { t with cores := s.cores, free := s.free } = s ∧
      (t.core n).pc = c.pc + 4 ∧
      ∀ k : Core, (t.core k).ipend =
        (if a.getLsbD k then (s.core k).ipend ||| 8 else (s.core k).ipend) ∧ ∀ r, t.g k r = s.g k r)

/-- R256, R259, R260, Tables 10.4 to 10.9: a program word is read by the formats, with its unused fields 0 and
its major opcode listed; the instructions that raise an exception enter the handler outside a handler: TRAP with its number, BRK while debug halt is off, an encoding of no instruction, a shift out
of range, an unlisted system register, a misaligned jump, load or store, a load without rights, and, on the safety core, an instruction outside
its subset (Table 10.12). A load that meets a poisoned word does so with POISON_D and the address, and the fetch
of a poisoned word with POISON_I; each is told to Cicada (R25). Inside a handler an exception halts the core with its registers as they were; NEST is set
and BTL_NEST reported (R263). -/
def Obligations.ExceptionsEnterTheHandler : Prop :=
  (∀ (n : AnyCore) (rd rs1 rs2 : GReg) (imm : BitVec 16) (sh : Fin 64) (w : Word),
    let a := fun (op fn : Nat) => BitVec.ofNat 32 (op * 2 ^ 26 + rd.val * 2 ^ 21 + rs1.val * 2 ^ 16 +
      rs2.val * 2 ^ 11 + sh.val * 2 ^ 5 + fn)
    let b := fun (op : Nat) => BitVec.ofNat 32 (op * 2 ^ 26 + rd.val * 2 ^ 21 + rs1.val * 2 ^ 16 + imm.toNat)
    scalarDecode n (b 0x01) = some (.addk n rd rs1 imm) ∧ scalarDecode n (b 0x16) = some (.ldW n rd rs1 imm) ∧
    scalarDecode n (b 0x19) = some (.stW n rs1 rd imm) ∧ scalarDecode n (b 0x0C) = some (.brEq n rs1 rd imm) ∧
    scalarDecode n (a 0x00 0x15) = some (.mulq n rd rs1 rs2 sh) ∧
    scalarDecode n (a 0x00 0x00) = (if sh.val = 0 then some (.add n rd rs1 rs2) else none) ∧
    scalarDecode n (a 0x00 0x08) = (if rs2.val = 0 then some (.shlk n rd rs1 sh) else none) ∧
    scalarDecode n (a 0x1C 0x03) =
      (if rd.val = 0 ∧ rs1.val = 0 ∧ rs2.val = 0 then some (.trap n sh) else none) ∧
    (w.toNat / 2 ^ 26 = 7 ∨ 32 ≤ w.toNat / 2 ^ 26 → scalarDecode n w = none)) ∧
  (∀ (n : AnyCore) (rd rs1 rs2 : GReg) (imm : BitVec 16) (sh : Fin 64) (s : State),
    s.atInstr n = true → (s.core n).st stXACT = false →
    let a := s.g n rs1 + imm.signExtend 32
    let enters := fun (i : Instr) (code : Word) (eval : Word) =>
      ∃ t, exec i s = .next t ∧ entersHandler n code eval (s.core n).xbase s t
    enters (.trap n sh) 6 (BitVec.ofNat 32 sh.val) ∧
    enters (.illegal n) 1 0 ∧
    (s.flag F.BTL_CTL_DBG_EN = false → enters (.brk n) 7 0) ∧
    (31 < sh.val → enters (.shlk n rd rs1 sh) 1 0 ∧ enters (.shrk n rd rs1 sh) 1 0 ∧
      enters (.sark n rd rs1 sh) 1 0) ∧
    (62 < sh.val → enters (.mulq n rd rs1 rs2 sh) 1 0) ∧
    (30 < sh.val → enters (.sat n rd rs1 sh) 1 0) ∧
    (8 < sh.val → enters (.mfs n rd sh) 1 0 ∧ enters (.mts n rs1 sh) 1 0) ∧
    (a.toNat % 4 ≠ 0 → enters (.jmpr n rd rs1 imm) 2 a ∧ enters (.ldW n rd rs1 imm) 2 a ∧
      enters (.stW n rs1 rs2 imm) 2 a) ∧
    (a.toNat % 2 ≠ 0 → enters (.ldH n rd rs1 imm) 2 a ∧ enters (.ldHu n rd rs1 imm) 2 a ∧
      enters (.stH n rs1 rs2 imm) 2 a) ∧
    (n.val < 8 → memReadable a.toNat = false → enters (.ldB n rd rs1 imm) 3 a ∧
      enters (.ldBu n rd rs1 imm) 3 a ∧
      (a.toNat % 2 = 0 → enters (.ldH n rd rs1 imm) 3 a ∧ enters (.ldHu n rd rs1 imm) 3 a) ∧
      (a.toNat % 4 = 0 → enters (.ldR n rd rs1 imm) 3 a ∧
        (regOff a.toNat = none → enters (.ldW n rd rs1 imm) 3 a))) ∧
    (n.val < 8 → memWritable a.toNat = false → enters (.stB n rs1 rs2 imm) 3 a ∧
      (a.toNat % 2 = 0 → enters (.stH n rs1 rs2 imm) 3 a) ∧
      (a.toNat % 4 = 0 → regOff a.toNat = none → enters (.stW n rs1 rs2 imm) 3 a)) ∧
    (n.val = 8 → ∀ i ∈ [Instr.ldR n rd rs1 imm, .stC n rd rs1 rs2, .signal n rs1, .waitsweep n rd sh,
      .commit n rd sh, .tstamp n rd sh, .bmov n rd rs1 rs2, .bcrc n rd rs1 rs2 sh,
      .tsrch n rd rs1 rs2 sh, .qpush n rd rs1 rs2 none, .qpop n rd rs1 rs2, .evwait n rd rs1,
      .evset n rs1 rs2], enters i 1 0)) ∧
  (∀ (n : AnyCore) (rd rs1 rs2 : GReg) (imm : BitVec 16) (sh : Fin 64) (s : State),
    n.val < 8 → (s.core n).st stXACT = false →
    let c := s.core n
    let a := s.g n rs1 + imm.signExtend 32
    let enters := fun (i : Instr) (code eval : Word) => ∃ t, exec i s = .next t ∧
      (t.core n).epc = c.pc ∧ (t.core n).cause = code ∧ (t.core n).eval = eval ∧ (t.core n).pc = c.xbase ∧
      (t.core n).st stIE = false ∧ (t.core n).st stPIE = c.st stIE ∧ (t.core n).st stXACT = true ∧
      (t.core n).resv = none ∧ (t.core n).wait = .none ∧ (∀ r, t.g n r = s.g n r) ∧
      t.flag F.GCR_ECC_UE_VALID = true ∧ t.flag (lineStat 0x03) = true ∧ ∀ k, t.rd8 k = s.rd8 k
    let loads := [(Instr.ldW n rd rs1 imm, 4), (.ldH n rd rs1 imm, 2), (.ldHu n rd rs1 imm, 2),
      (.ldB n rd rs1 imm, 1), (.ldBu n rd rs1 imm, 1)]
    (s.atInstr n = true → s.drained n = true → memReadable a.toNat = true → ∀ p ∈ loads, a.toNat % p.2 = 0 →
      s.poisoned a.toNat p.2 = true → enters p.1 5 a) ∧
    (c.ready = true → c.pc.toNat < 0x02000000 → tget (fun _ => none) c.icache c.pc.toNat = none →
      s.poisoned c.pc.toNat 4 = true → s.noneWaits = true →
      ∀ i ∈ [Instr.add n rd rs1 rs2, .addk n rd rs1 imm, .ldW n rd rs1 imm, .stW n rs1 rs2 imm,
        .brEq n rs1 rs2 imm, .trap n sh, .illegal n], enters i 4 0)) ∧
  ∀ (n : AnyCore) (sh : Fin 64) (s : State), s.atInstr n = true → (s.core n).st stXACT = true →
    ∀ i ∈ [Instr.trap n sh, .illegal n], ∃ t, exec i s = .next t ∧ (t.core n).nested = true ∧
      (t.core n).pc = (s.core n).pc ∧ (t.core n).epc = (s.core n).epc ∧ (t.core n).cause = (s.core n).cause ∧
      (t.core n).eval = (s.core n).eval ∧ (t.core n).status = (s.core n).status ∧ (∀ r, t.g n r = s.g n r) ∧
      (n.val < 8 → t.flagBit F.BTL_STAT_NEST n = true) ∧ t.flag (lineStat 0x1A) = true ∧
      ∀ k, t.rd8 k = s.rd8 k

/-- R274 to R277: WAITSWEEP waits for the point it names; COMMIT answers the first sweep whose admission
point lies ahead (all ones while sweeps do not run), or waits for that point; TSTAMP answers Firefly
time, with SH at 1 in a pair of registers. Outside a handler another SH, or an odd rd of a pair, raises
ILLEGAL. The store buffer is empty here: nothing is said of these instructions with stores in it. TSTAMP's exact
instant, where R277 allows a few nanoseconds, and the sweep that COMMIT names are the model's reading
(assumptions 174 and 176). -/
def Obligations.SweepInstructions : Prop :=
  ∀ (n : Core) (rd : GReg) (sh : Fin 64) (s : State), s.atInstr n = true → s.drained n = true →
    let m : AnyCore := ⟨n.val, by omega⟩
    let illegal := fun (i : Instr) => ∃ t, exec i s = .next t ∧ entersHandler n 1 0 (s.core n).xbase s t
    (∀ adm : Bool, ∃ t, exec (.waitsweep m rd (if adm then 1 else 0)) s = .next t ∧ onlyCore n s t ∧
      (t.core n).wait = .sweep rd adm ∧ (t.core n).pc = (s.core n).pc ∧ ∀ r, t.g n r = s.g n r) ∧
    (s.running = false → ∀ sh ∈ [(0 : Fin 64), 1],
      ∃ t, exec (.commit m rd sh) s = .next t ∧ retires n rd 0xFFFFFFFF s t) ∧
    (s.running = true →
      (∃ t, exec (.commit m rd 0) s = .next t ∧ retires n rd s.nextSweep s t) ∧
      ∃ t, exec (.commit m rd 1) s = .next t ∧ onlyCore n s t ∧
        (t.core n).wait = .commit rd s.nextSweep ∧ (t.core n).pc = (s.core n).pc ∧
        ∀ r, t.g n r = s.g n r) ∧
    (∃ t, exec (.tstamp m rd 0) s = .next t ∧ retires n rd (BitVec.ofNat 32 s.ns) s t) ∧
    (rd.val % 2 = 0 → ∃ t, exec (.tstamp m rd 1) s = .next t ∧ onlyCore n s t ∧
      (t.core n).pc = (s.core n).pc + 4 ∧
      t.g n rd = (if rd.val = 0 then 0 else BitVec.ofNat 32 s.ns) ∧
      t.g n (rd.val + 1) = BitVec.ofNat 32 (s.ns / 2 ^ 32) ∧
      ∀ r, r ≠ rd.val → r ≠ rd.val + 1 → t.g n r = s.g n r) ∧
    ((s.core n).st stXACT = false →
      (1 < sh.val → illegal (.waitsweep m rd sh) ∧ illegal (.commit m rd sh) ∧ illegal (.tstamp m rd sh)) ∧
      (rd.val % 2 = 1 → illegal (.tstamp m rd 1)))

/-! ### The vector class (chapters 5 and 10) -/

/-- Table 10.13, R130: the VALU functions act lane by lane on the old registers; results that leave the
signed range saturate and are recorded in the engine's lane mask, and no other register changes.
VSPLAT copies a general register of a hook to every lane. -/
def Obligations.VectorAluByLane : Prop :=
  ∀ (e : Engine) (vd vs1 vs2 : VReg) (sh : Fin 64) (s : State), s.vecOpen e = true →
    let w := s.engine e
    let a := fun m => w.lane vs1 m
    let b := fun m => w.lane vs2 m
    let kept := fun (t : State) => vecOnly e s t ∧
      (∀ r m, r ≠ vd.val → m < 32 → (t.engine e).lane r m = w.lane r m) ∧
      (t.engine e).acc = w.acc ∧ (t.engine e).g = w.g ∧ (t.engine e).st = w.st ∧
      (t.engine e).out = w.out ∧ (t.engine e).govLanes = w.govLanes
    let int := fun (i : Instr) (f : Nat → Int) => ∃ t, exec i s = .next t ∧ kept t ∧
      ∀ m, m < 32 → ((t.engine e).lane vd m).toInt = clampTo 32 (f m) ∧
        ((t.engine e).satLanes.getLsbD m = true ↔ w.satLanes.getLsbD m = true ∨ outside 32 (f m))
    let bits := fun (i : Instr) (f : Nat → Word) => ∃ t, exec i s = .next t ∧ kept t ∧
      (t.engine e).satLanes = w.satLanes ∧ ∀ m, m < 32 → (t.engine e).lane vd m = f m
    int (.vadd e vd vs1 vs2) (fun m => (a m).toInt + (b m).toInt) ∧
    int (.vsub e vd vs1 vs2) (fun m => (a m).toInt - (b m).toInt) ∧
    int (.vabs e vd vs1) (fun m => (a m).toInt.natAbs) ∧
    int (.vneg e vd vs1) (fun m => -(a m).toInt) ∧
    int (.vsra e vd vs1 sh) (fun m =>
      if sh.val = 0 then (a m).toInt else ((a m).toInt + 2 ^ (sh.val - 1)) / 2 ^ sh.val) ∧
    int (.vsll e vd vs1 sh) (fun m => (a m).toInt * 2 ^ sh.val) ∧
    bits (.vaddw e vd vs1 vs2) (fun m => a m + b m) ∧
    bits (.vsubw e vd vs1 vs2) (fun m => a m - b m) ∧
    bits (.vmin e vd vs1 vs2) (fun m => BitVec.ofInt 32 (min (a m).toInt (b m).toInt)) ∧
    bits (.vmax e vd vs1 vs2) (fun m => BitVec.ofInt 32 (max (a m).toInt (b m).toInt)) ∧
    bits (.vand e vd vs1 vs2) (fun m => a m &&& b m) ∧
    bits (.vor e vd vs1 vs2) (fun m => a m ||| b m) ∧
    bits (.vxor e vd vs1 vs2) (fun m => a m ^^^ b m) ∧
    bits (.vcmplt e vd vs1 vs2) (fun m => if (a m).toInt < (b m).toInt then 0xFFFFFFFF else 0) ∧
    bits (.vcmpeq e vd vs1 vs2) (fun m => if a m = b m then 0xFFFFFFFF else 0) ∧
    bits (.vsel e vd vs1 vs2) (fun m => if w.lane vd m = 0 then b m else a m) ∧
    bits (.vmov e vd vs1) a ∧
    (∀ (n : Arm) (g : GReg), e = .hook n → bits (.vsplat e vd g) (fun _ => w.gr g))

/-- Table 10.10, R121, R123, R127: VLD reads a vector of its space, VST writes one of OUT or ST (lanes 24
to 31 of OUT7 excepted), VPERM permutes by a vector of the parameter page. No word read is poisoned. -/
def Obligations.VectorLoadsAndStores : Prop :=
  ∀ (vd vs1 : VReg) (sp : Space) (index : Fin 256) (s : State),
    s.vecOpen .hornet = true → index.val < spaceSize sp →
    let w := s.hrn.work
    let c := hornetCtx s
    let lanes := fun (t : State) (f : Nat → Word) => vecOnly .hornet s t ∧
      (∀ m, m < 32 → t.hrn.work.lane vd m = f m) ∧
      (∀ r m, r ≠ vd.val → m < 32 → t.hrn.work.lane r m = w.lane r m) ∧
      t.hrn.work.st = w.st ∧ t.hrn.work.out = w.out ∧ t.hrn.work.acc = w.acc
    (w.reads c (.vld vd sp index) = false →
      ∃ t, exec (.vld .hornet vd sp index) s = .next t ∧
        lanes t (fun m => w.load c sp (32 * index.val + m))) ∧
    (w.reads c (.vperm vd vs1 index) = false →
      ∃ t, exec (.vperm .hornet vd vs1 index) s = .next t ∧
        lanes t (fun m => let p := c.parW (32 * index.val + m)
          if p.getLsbD 31 then 0 else w.lane vs1 (p.toNat % 32))) ∧
    (sp = .st → ∃ t, exec (.vst .hornet vs1 sp index) s = .next t ∧ vecOnly .hornet s t ∧
      t.hrn.work.v = w.v ∧ t.hrn.work.out = w.out ∧
      ∀ k, t.hrn.work.stW c k =
        if 32 * index.val ≤ k ∧ k < 32 * index.val + 32 then w.lane vs1 (k % 32) else w.stW c k) ∧
    (sp = .out → ∃ t, exec (.vst .hornet vs1 sp index) s = .next t ∧ vecOnly .hornet s t ∧
      t.hrn.work.v = w.v ∧ t.hrn.work.st = w.st ∧
      ∀ k, t.hrn.work.outW c k =
        if 32 * index.val ≤ k ∧ k < 32 * index.val + 32 ∧ k < 248 then w.lane vs1 (k % 32)
        else w.outW c k)

/-- R130 to R134, Tables 5.4 and 10.10: the accumulator. A product sum wraps modulo 2^72 and the net-wrap
counter follows; VCLRA, VMUL and VLDA set it; VEXT and VSTA saturate, by the counter when it is not 0. -/
def Obligations.AccumulatorInstructions : Prop :=
  ∀ (ac : Acc) (vd vs1 vs2 : VReg) (lane : Fin 32) (neg : Bool) (sh : Fin 64) (index : Fin 128)
    (s : State), s.vecOpen .hornet = true →
    let w := s.hrn.work
    let c := hornetCtx s
    let old := fun m => w.accOf ac m
    let acc := fun (i : Instr) (f : Nat → AccSt) => ∃ t, exec i s = .next t ∧ vecOnly .hornet s t ∧
      t.hrn.work.v = w.v ∧ t.hrn.work.st = w.st ∧ t.hrn.work.out = w.out ∧
      (∀ m, m < 32 → t.hrn.work.accOf ac m = f m) ∧
      ∀ a m, a ≠ ac.val → m < 32 → t.hrn.work.accOf a m = w.accOf a m
    let plus := fun (o : AccSt) (p : Int) =>
      let x := o.val + p
      if 2 ^ 71 ≤ x then { val := x - 2 ^ 72, nw := (nwUp o.nw o.up).1, up := (nwUp o.nw o.up).2 : AccSt }
      else if x < -2 ^ 71 then
        { val := x + 2 ^ 72, nw := (nwDown o.nw o.up).1, up := (nwDown o.nw o.up).2 : AccSt }
      else { o with val := x }
    let sgn := fun (p : Int) => if neg then -p else p
    let out := fun (o : AccSt) (k bits : Nat) =>
      if o.nw = 0 then clampTo bits (if k = 0 then o.val else (o.val + 2 ^ (k - 1)) / 2 ^ k)
      else if o.nw = 1 ∨ (o.nw ≠ 3 ∧ o.up = true) then 2 ^ (bits - 1) - 1 else -2 ^ (bits - 1)
    acc (.vmac .hornet ac vs1 vs2 neg)
      (fun m => plus (old m) (sgn ((w.lane vs1 m).toInt * (w.lane vs2 m).toInt))) ∧
    acc (.vmacl .hornet ac vs1 vs2 lane neg)
      (fun m => plus (old m) (sgn ((w.lane vs1 m).toInt * (w.lane vs2 lane).toInt))) ∧
    acc (.vmul .hornet ac vs1 vs2)
      (fun m => { val := (w.lane vs1 m).toInt * (w.lane vs2 m).toInt, nw := 0, up := false }) ∧
    acc (.vclra .hornet ac) (fun _ => { val := 0, nw := 0, up := false }) ∧
    (index.val % 2 = 0 → w.reads c (.vlda ac index) = false →
      acc (.vlda .hornet ac index)
        (fun m => { val := w.st64 c (32 * index.val + 2 * m), nw := 0, up := false })) ∧
    (∃ t, exec (.vext .hornet vd ac sh) s = .next t ∧ vecOnly .hornet s t ∧ t.hrn.work.acc = w.acc ∧
      (∀ m, m < 32 → (t.hrn.work.lane vd m).toInt = out (old m) sh 32 ∧
        (t.hrn.work.govLanes.getLsbD m = true ↔ w.govLanes.getLsbD m = true ∨ (old m).nw ≠ 0)) ∧
      ∀ r m, r ≠ vd.val → m < 32 → t.hrn.work.lane r m = w.lane r m) ∧
    (index.val % 2 = 0 →
      ∃ t, exec (.vsta .hornet ac index) s = .next t ∧ vecOnly .hornet s t ∧ t.hrn.work.acc = w.acc ∧
      t.hrn.work.v = w.v ∧
      ∀ m, m < 32 → t.hrn.work.st64 c (32 * index.val + 2 * m) = out (old m) 0 64)

/-- R136 to R139: VGS leaves the lanes whose table is disabled; on the others it writes the three gains in
force; a lane marked for selection takes the highest region whose breakpoint its value reaches, and any
other lane moves by at most one region. R140, R141: VNOTCH copies the lanes whose section is disabled; on
the others it computes the section exactly, rounds and saturates once for the output, and stores both
states saturated to 64 bits. R143 to R145: VMSEL of an enabled group gives every lane of the group the
least (or, by MODE, the greatest) candidate clamped to the group's limits, adjusts each integrator toward
it, and reports the lowest lane that holds the selected candidate in OUT7. -/
def Obligations.GainNotchAndSelect : Prop :=
  (∀ (vd vs1 : VReg) (s : State), s.vecOpen .hornet = true → vd.val ≤ 13 →
      let w := s.hrn.work
      let c := hornetCtx s
      w.reads c (.vgs vd vs1) = false →
      ∃ t, exec (.vgs .hornet vd vs1) s = .next t ∧ vecOnly .hornet s t ∧
        ∀ m, m < 32 →
          (gainEn c m = false → t.hrn.work.gain c m = w.gain c m ∧
            ∀ r, t.hrn.work.lane r m = w.lane r m) ∧
          (gainEn c m = true →
            let x := (w.lane vs1 m).toInt
            let g := w.gain c m
            let g' := t.hrn.work.gain c m
            (∀ i, i < 3 → t.hrn.work.lane (vd.val + i) m = BitVec.ofInt 32 (g'.cur.getD i 0)) ∧
            (∀ r, ¬(vd.val ≤ r ∧ r ≤ vd.val + 2) → t.hrn.work.lane r m = w.lane r m) ∧
            (g.mark = true → g'.mark = false ∧ g'.cur = gainRegion c m g'.region ∧
              g'.region < gainNreg c m ∧ (g'.region = 0 ∨ gainBp c m g'.region ≤ x) ∧
              ∀ r, g'.region < r → r < gainNreg c m → x < gainBp c m r) ∧
            (g.mark = false → g'.mark = false ∧ g'.region ≤ g.region + 1 ∧ g.region ≤ g'.region + 1))) ∧
  (∀ (vd vs1 : VReg) (k : Fin 4) (sa : Fin 32) (s : State), s.vecOpen .hornet = true →
      let w := s.hrn.work
      let c := hornetCtx s
      w.reads c (.vnotch vd vs1 k sa) = false →
      ∃ t, exec (.vnotch .hornet vd vs1 k sa) s = .next t ∧ vecOnly .hornet s t ∧
        t.hrn.work.acc = w.acc ∧
        ∀ m, m < 32 →
          let a := 128 * sa.val + 4 * m
          let x := (w.lane vs1 m).toInt
          let b := notchCoef c m k
          let y := clampTo 32 ((w.st64 c a + b 0 * x + 2 ^ 28) / 2 ^ 29)
          (∀ r, r ≠ vd.val → t.hrn.work.lane r m = w.lane r m) ∧
          (notchEn c m k = false → t.hrn.work.lane vd m = w.lane vs1 m ∧
            t.hrn.work.st64 c a = w.st64 c a ∧ t.hrn.work.st64 c (a + 2) = w.st64 c (a + 2)) ∧
          (notchEn c m k = true → (t.hrn.work.lane vd m).toInt = y ∧
            t.hrn.work.st64 c a = clampTo 64 (w.st64 c (a + 2) + b 1 * x - b 3 * y) ∧
            t.hrn.work.st64 c (a + 2) = clampTo 64 (b 2 * x - b 4 * y))) ∧
  (∀ (vd vc vi : VReg) (g : Fin 8) (s : State), s.vecOpen .hornet = true →
      let w := s.hrn.work
      let c := hornetCtx s
      let mask := groupW c g 0
      let cand := fun m => (w.lane vc m).toInt
      let better := fun (x y : Int) => if (groupW c g 1).getLsbD 0 then y ≤ x else x ≤ y
      w.reads c (.vmsel vd vc vi g) = false → (groupW c g 1).getLsbD 31 = true → mask ≠ 0 →
      ∃ t l, exec (.vmsel .hornet vd vc vi g) s = .next t ∧ vecOnly .hornet s t ∧
        l < 32 ∧ mask.getLsbD l = true ∧ (∀ m, m < 32 → mask.getLsbD m = true → better (cand l) (cand m)) ∧
        (∀ m, m < l → mask.getLsbD m = true → cand m ≠ cand l) ∧
        let out := max (groupW c g 2).toInt (min (groupW c g 3).toInt (cand l))
        t.hrn.work.outW c (248 + g.val) =
          BitVec.ofNat 32 (2 ^ 15 + l + (if out = cand l then 0 else 2 ^ 8)) ∧
        ∀ m, m < 32 →
          (mask.getLsbD m = false → ∀ r, t.hrn.work.lane r m = w.lane r m) ∧
          (mask.getLsbD m = true → (vd ≠ vi → (t.hrn.work.lane vd m).toInt = out) ∧
            (t.hrn.work.lane vi m).toInt = clampTo 32 ((w.lane vi m).toInt +
              clampTo 32 ((((w.gain c m).cur).getD 2 0 * (out - cand m) + 2 ^ 29) / 2 ^ 30)) ∧
            ∀ r, r ≠ vd.val → r ≠ vi.val → t.hrn.work.lane r m = w.lane r m))

/-- Tables 10.10 and 10.12, R82, R121: VBR with its condition met skips the instructions between it and
its target; an instruction that is skipped, or comes after END, has no effect of its own; END ends the
run. An instruction outside an engine's subset or a space's range never runs there. -/
def Obligations.VectorControlFlow : Prop :=
  (∀ (e : Engine) (vs1 vd : VReg) (off : Fin 4096) (s : State), s.vecOpen e = true → off.val ≠ 0 →
      let w := s.engine e
      let holds := fun (c : VCond) => match c with
        | .always => True
        | .anyNonzero => ∃ m, m < 32 ∧ w.lane vs1 m ≠ 0
        | .allZero => ∀ m, m < 32 → w.lane vs1 m = 0
      (∀ c, ∃ t, exec (.vbr e c vs1 off) s = .next t ∧ vecOnly e s t ∧
        (holds c → (t.engine e).skip = off.val) ∧ (¬holds c → (t.engine e).skip = 0) ∧
        (t.engine e).v = w.v ∧
        ∀ u, holds c → exec (.vmov e vd vs1) t = .next u →
          (u.engine e).v = w.v ∧ (u.engine e).skip = off.val - 1) ∧
      ∃ t, exec (.endVec e) s = .next t ∧ vecOnly e s t ∧ (t.engine e).ended = true ∧
        (t.engine e).v = w.v ∧ ∀ u, exec (.vmov e vd vs1) t = .next u → (u.engine e).v = w.v) ∧
  (∀ (n : Arm) (vd vs1 vs2 : VReg) (g : GReg) (sp : Space) (index : Fin 256) (s : State),
      exec (.vsplat .hornet vd g) s = .next s ∧
      exec (.vld (.hook n) vd sp index) s = .next s ∧
      exec (.vst (.hook n) vs1 sp index) s = .next s ∧
      exec (.vgs (.hook n) vd vs1) s = .next s ∧
      exec (.vmul (.hook n) 0 vs1 vs2) s = .next s ∧
      exec (.vmsel (.hook n) vd vs1 vs2 0) s = .next s ∧
      exec (.vst .hornet vs1 .inp index) s = .next s ∧ exec (.vst .hornet vs1 .par index) s = .next s ∧
      (spaceSize sp ≤ index.val → exec (.vld .hornet vd sp index) s = .next s))

/-! ### Block instructions, and the control of the cores (chapter 10) -/

/-- R270 to R273: one element of a block instruction with three different registers, none of them g0, and
an empty store buffer. BMOV copies 8 bytes, BCRC takes the bytes up to the next multiple of 8 into its
CRC, TSRCH compares one entry; each moves its registers on and ends when its count is 0. A byte of a bank
that is not in use (R23) is free, and none is written there. -/
def Obligations.BlockInstructionElement : Prop :=
  ∀ (n : Core) (rd rs1 rs2 : GReg) (sh : Fin 64) (s : State), s.atInstr n = true → s.drained n = true →
    rd.val ≠ 0 → rs1.val ≠ 0 → rs2.val ≠ 0 → rd ≠ rs1 → rd ≠ rs2 → rs1 ≠ rs2 →
    let m : AnyCore := ⟨n.val, by omega⟩
    let d := s.g n rd
    let a := s.g n rs1
    let k := s.g n rs2
    let regs := fun (t : State) (x y z : Word) => t.g n rd = x ∧ t.g n rs1 = y ∧ t.g n rs2 = z ∧
      ∀ r, r ≠ rd.val → r ≠ rs1.val → r ≠ rs2.val → t.g n r = s.g n r
    let pc := fun (t : State) (z : Word) =>
      (t.core n).pc = if z = 0 then (s.core n).pc + 4 else (s.core n).pc
    let src := fun (l : Nat) => rangeReadable a.toNat l = true ∧ s.clean a.toNat l = true
    (k = 0 → sh.val ≤ 1 → ∀ i ∈ [Instr.bmov m rd rs1 rs2, .bcrc m rd rs1 rs2 sh, .tsrch m rd rs1 rs2 sh],
      ∃ t, exec i s = .next t ∧ jumps n 0 ((s.core n).pc + 4) s t) ∧
    (k ≠ 0 → k.toNat % 8 = 0 → d.toNat % 8 = 0 → a.toNat % 8 = 0 → src 8 →
      rangeWritable d.toNat 8 = true → d.toNat < 0x08000000 →
      ∃ t, exec (.bmov m rd rs1 rs2) s = .next t ∧ regs t (d + 8) (a + 8) (k - 8) ∧ pc t (k - 8) ∧
        (∀ j, j < 8 → t.rd8 (d.toNat + j) =
          if s.bankOpen d.toNat then s.ld8 (a.toNat + j) else s.rd8 (d.toNat + j)) ∧ memKept d.toNat 8 s t) ∧
    (k ≠ 0 → sh.val ≤ 1 →
      let l := min k.toNat (8 - a.toNat % 8)
      src l →
      ∃ t, exec (.bcrc m rd rs1 rs2 sh) s = .next t ∧ pc t (k - BitVec.ofNat 32 l) ∧
        regs t ((s.rdBytes a.toNat l).foldl (if sh.val = 0 then crc32Byte else crcHByte) d)
          (a + BitVec.ofNat 32 l) (k - BitVec.ofNat 32 l) ∧ onlyCore n s t) ∧
    (k ≠ 0 → sh.val ≤ 3 → a.toNat % 4 = 0 → src 4 →
      ∃ t, exec (.tsrch m rd rs1 rs2 sh) s = .next t ∧ onlyCore n s t ∧
        (s.rd32 a.toNat = d → regs t d a k ∧ (t.core n).pc = (s.core n).pc + 4) ∧
        (s.rd32 a.toNat ≠ d → regs t d (a + BitVec.ofNat 32 (4 * 2 ^ sh.val)) (k - 1) ∧ pc t (k - 1)))

/-- R253, R282: CORE_RUN starts a stopped core at its boot address with every register at 0, an empty
store buffer and no reservation (IPEND bit 0 is set while the core holds an offer, R312), once the stores
left since it was stopped have drained, and a core that was halted is so no more, which may end a freeze
of the PWM outputs (R419); CORE_STOP stops a running core with an empty store buffer and keeps its
registers. HALT asks a core to halt; the halt takes effect at the next boundary with an empty store
buffer, and a COMMIT that waits is inside its instruction (R259); RESUME lets the core go on where it
stands. A command that finds nothing to do has no effect. R259, R260, R262: an enabled pending interrupt
enters the handler at XBASE + 0x80 with the lowest pending enabled bit in CAUSE; WFI ends when one is
pending. -/
def Obligations.CoreControlAndInterrupts : Prop :=
  ((∀ (n : Core) (s : State),
        (s.flagBit F.BTL_CTL_RUN n = true → exec (.coreRun n) s = .next s) ∧
        (s.flagBit F.BTL_CTL_RUN n = false → s.drained n = false →
          ∃ t, exec (.coreRun n) s = .next t ∧ t.flagBit F.BTL_CTL_RUN n = true ∧ (t.core n).startDue = true ∧
            (t.core n).run = (s.core n).run ∧ (t.core n).sb = (s.core n).sb) ∧
        (s.flagBit F.BTL_CTL_RUN n = false → s.drained n = true →
          ∃ t, exec (.coreRun n) s = .next t ∧ t.flagBit F.BTL_CTL_RUN n = true ∧
            (∀ m, m ≠ n.val → t.core m = s.core m ∧ (m < 8 → t.flagBit F.BTL_CTL_RUN m = s.flagBit F.BTL_CTL_RUN m)) ∧
            (t.core n).run = true ∧ (t.core n).pc = s.reg (R.BTL_BOOT + 0x20 * n.val) &&& 0xFFFFFFFC ∧
            (∀ r, t.g n r = 0) ∧ (t.core n).status = 0 ∧ (t.core n).epc = 0 ∧ (t.core n).cause = 0 ∧
            (t.core n).eval = 0 ∧ (t.core n).xbase = 0 ∧ (t.core n).ien = 0 ∧
            (t.core n).ipend = (if (s.hcore n).offer.isSome then 1 else 0) ∧ (t.core n).sb = [] ∧
            (t.core n).scratch = 0 ∧ (t.core n).resv = none ∧
            { t with cores := s.cores, regs := s.regs, pwm := s.pwm } = s ∧
            ((s.core n).halted = false → t.pwm = s.pwm) ∧
            ((s.core n).halted = true → (t.core n).halted = false ∧ t.flag F.PWM_STAT_FROZEN = t.pwmStops)) ∧
        (s.noneWaits = true → s.drained n = true →
          (s.flagBit F.BTL_CTL_RUN n = false → exec (.coreStop n) s = .next s) ∧
          (s.flagBit F.BTL_CTL_RUN n = true →
            ∃ t, exec (.coreStop n) s = .next t ∧ t.flagBit F.BTL_CTL_RUN n = false ∧
              (t.core n).run = false ∧ (∀ r, t.g n r = s.g n r) ∧ (t.core n).pc = (s.core n).pc ∧
              (∀ m, m ≠ n.val → t.core m = s.core m) ∧ { t with cores := s.cores, regs := s.regs } = s))) ∧
    (∀ (n : Core) (s : State),
        let regs := fun (t : State) => (t.core n).pc = (s.core n).pc ∧ (∀ r, t.g n r = s.g n r) ∧
          (∀ m, m ≠ n.val → t.core m = s.core m) ∧ ∀ k, t.rd8 k = s.rd8 k
        ((s.core n).halted = false → ∃ t, exec (.halt n) s = .next t ∧ regs t ∧
          (t.core n).haltReq = true ∧ (t.core n).halted = false) ∧
        ((s.core n).halted = true → s.noneWaits = true →
          (∀ j, j < 16 → s.taskCore j = n.val → (s.task j).safeDue = false) →
          ∃ t, exec (.resume n) s = .next t ∧ regs t ∧
          (t.core n).halted = false ∧ (t.core n).haltReq = false) ∧
        ((s.core n).halted = false → s.noneWaits = true → exec (.resume n) s = .next s) ∧
        (s.noneWaits = true → s.drained n = true → (s.core n).haltReq = true → (s.core n).run = true →
          (s.core n).nested = false → (s.core n).wait.interruptible = true →
          ∃ t, exec (.coreHalted n) s = .next t ∧ regs t ∧ (t.core n).halted = true ∧
            (t.core n).haltReq = false) ∧
        ((s.core n).haltReq = false ∨ (s.core n).wait.interruptible = false →
          exec (.coreHalted n) s = .next s) ∧
        (s.atInstr n = true → s.drained n = true → s.flag F.BTL_CTL_DBG_EN = true →
          ∃ t, exec (.brk ⟨n.val, by omega⟩) s = .next t ∧ (t.core n).halted = true ∧
            (t.core n).pc = (s.core n).pc + 4 ∧ ∀ r, t.g n r = s.g n r))) ∧
  (∀ (n : AnyCore) (b : Fin 8) (s : State),
      let c := s.core n
      c.live = true →
      (c.st stIE = true → c.st stXACT = false → c.wait.interruptible = true →
        (c.ipend &&& c.ien).getLsbD b = true → (∀ j, j < b.val → (c.ipend &&& c.ien).getLsbD j = false) →
        ∃ t, exec (.interrupt n) s = .next t ∧
          entersHandler n (0x80000010 + BitVec.ofNat 32 b.val) 0 (c.xbase + 0x80) s t) ∧
      (c.st stIE = false ∨ c.st stXACT = true ∨ (c.ipend &&& c.ien) &&& 0xFF = 0 ∨
          c.wait.interruptible = false →
        exec (.interrupt n) s = .next s) ∧
      (c.wait = .wfi → (c.ipend &&& c.ien).getLsbD b = true →
        ∃ t, exec (.wfiWake n) s = .next t ∧ onlyCore n s t ∧ (t.core n).wait = .none ∧
          (t.core n).pc = c.pc + 4 ∧ ∀ r, t.g n r = s.g n r) ∧
      (c.wait = .wfi → (c.ipend &&& c.ien) &&& 0xFF = 0 → exec (.wfiWake n) s = .next s))

/-! ### Cyclic tasks (chapter 11) -/

/-- R286, R291, R292, R295: DONE ends a busy cycle and lets its outputs wait. While sweeps run, a written
mode waits for the commit point; while none run, Hold takes effect at once, Stop with its safe image, and
Run from Stop when the checks of Table 11.5 pass. A watchdog expires while its cycle still runs and its core
is not HELD (R297); it sets WDG, stops the bound core, and takes every task of that core to Stop (here the core has no store waiting and its tasks have no
outputs, as COUNTS says, which is read without an error). -/
def Obligations.CyclicTasks : Prop :=
  (∀ (k : Fin 16) (s : State),
      (s.taskBusy k = false → exec (.taskDone k) s = .next s) ∧
      (s.taskBusy k = true → s.modeAct k = mdRun →
        ∃ t, exec (.taskDone k) s = .next t ∧ t.taskBusy k = false ∧ (t.task k).done = true ∧
          t.modeAct k = mdRun ∧ (t.task k).start = (s.task k).start ∧
          t.fld (taskFld k F.BTL_TCNT_MAX_SW) =
            max (s.fld (taskFld k F.BTL_TCNT_MAX_SW)) (min 0xFFFF (s.sweep - (s.task k).start).toNat) ∧
          (∀ j, j ≠ k.val → t.task j = s.task j) ∧ { t with tasks := s.tasks, regs := s.regs } = s)) ∧
  (∀ (k : Fin 16) (s : State), s.noneWaits = true →
      (s.running = true → ∀ p ∈ [(Instr.taskRun k, mdRun), (.taskHold k, mdHold), (.taskStop k, mdStop)],
        ∃ t, exec p.1 s = .next t ∧ (t.task k).pend = some p.2 ∧ t.modeAct k = s.modeAct k ∧
          t.fld (taskFld k F.BTL_TCFG_MODE) = p.2 ∧ (∀ j, j ≠ k.val → t.task j = s.task j) ∧
          { t with tasks := s.tasks, regs := s.regs } = s) ∧
      (s.running = false → s.crk.commitDue = none →
        (s.modeAct k = mdRun → ∃ t, exec (.taskHold k) s = .next t ∧ t.modeAct k = mdHold ∧
          (t.task k).pend = none ∧ { t with tasks := s.tasks, regs := s.regs } = s) ∧
        (s.modeAct k = mdStop → ∃ t, exec (.taskRun k) s = .next t ∧
          t.fld (taskFld k F.BTL_TSTAT_ERR) = s.runErr k ∧
          t.modeAct k = (if s.runErr k = 0 then mdRun else mdStop) ∧ (t.task k).pend = none) ∧
        (s.modeAct k = mdRun → s.outWords k = 0 → s.poisoned (s.image k) 4 = false → ∃ t, exec (.taskStop k) s = .next t ∧
          t.modeAct k = mdStop ∧ t.taskBusy k = false ∧ (t.task k).done = false ∧
          ∀ a, t.rd8 a = s.rd8 a) ∧
        (s.modeAct k = mdRun → s.taskHeld k = false → s.plainImage k → ∃ t, exec (.taskStop k) s = .next t ∧
          t.modeAct k = mdStop ∧ t.taskBusy k = false ∧ (t.task k).done = false ∧
          outputsWritten k 0x340 s t))) ∧
  (∀ (k : Fin 16) (s : State),
      (s.modeAct k = mdStop ∨ s.taskBusy k = false ∨ s.taskHeld k = true ∨ s.consec k < s.wdgN k →
        exec (.cycWdg k) s = .next s) ∧
      (s.modeAct k ≠ mdStop → s.taskBusy k = true → s.taskHeld k = false → s.wdgN k ≤ s.consec k →
        s.drained (s.taskCore k) = true →
        (∀ j ∈ s.boundTasks (s.taskCore k), s.outWords j = 0 ∧ s.poisoned (s.image j) 4 = false) →
        ∃ t, exec (.cycWdg k) s = .next t ∧ t.flag (taskFld k F.BTL_TSTAT_WDG) = true ∧
          t.flagBit F.BTL_CTL_RUN (s.taskCore k) = false ∧
          (∀ j, j < 16 → s.taskCore j = s.taskCore k → t.modeAct j = mdStop) ∧
          (∀ j, j < 16 → s.taskCore j ≠ s.taskCore k → t.modeAct j = s.modeAct j) ∧
          ∀ a, t.rd8 a = s.rd8 a))

/-! ### Hive (chapter 12) -/

/-- R301, R305: QPUSH of an item to an enabled queue with room, with an empty store buffer, answers 0: the
item stands in a slot that was free, behind the queue's tail, DEPTH is one more, and a push that took
DEPTH from 0 to 1 sets the notified task's flag; a push at DEPTH 1 or above sets none. The rest of memory
stays. The banks of queues and items are in use (R23). -/
def Obligations.QueuePushAppends : Prop :=
  ∀ (n : Core) (rd rs1 rs2 : GReg) (s : State), s.atInstr n = true → s.drained n = true →
    s.canon = true →
    let m : AnyCore := ⟨n.val, by omega⟩
    let q := (s.g n rs1).toNat
    let a := (s.g n rs2).toNat
    let d := s.desc q
    rangeReadable a 8 = true → s.clean a 8 = true → s.clean (descAddr q) 16 = true → q < 1048576 →
    s.bankOpen (descAddr q) = true → s.bankOpen (slotAddr 0) = true →
    s.hive.init = false → s.hive.flush ≠ some q → d.en = true → d.depth < 2 ^ d.limit → d.limit ≤ 21 →
    (d.atomic = true → flowKey (s.rdBytes a 8) < 6144) → s.hive.used.length < poolSize →
    ∃ t i, exec (.qpush m rd rs1 rs2 none) s = .next t ∧ retiredWith n rd 0 s t ∧
      i < poolSize ∧ i ∉ s.hive.used ∧ t.hive.used = kins i s.hive.used ∧
      t.hive.queued = s.hive.queued + 1 ∧ t.hive.svc = s.hive.svc ∧
      (∀ k, k < 8 → t.rd8 (slotAddr i + k) = s.ld8 (a + k)) ∧
      t.desc q = { d with head := if d.depth = 0 then i else d.head, tail := i, depth := d.depth + 1 } ∧
      (d.depth ≠ 0 → t.nextSlot d.tail = i) ∧
      (d.nen = true → d.depth = 0 → (t.htask d.ntask).flags.getLsbD d.nflag = true) ∧
      (d.nen = false ∨ d.depth ≠ 0 → ∀ k, t.htask k = s.htask k) ∧
      ∀ k, ¬(slotAddr i ≤ k ∧ k < slotAddr i + 8) → ¬(descAddr q ≤ k ∧ k < descAddr q + 16) →
        t.rd8 k = s.rd8 k

/-- R301 to R303: QPOP, with an empty store buffer, stores the oldest item and takes it from the queue; of
an ATOMIC queue, the oldest of its first 16 items whose flow is unlocked. The other items stay in their
order. Without HOLD it answers 0 and frees the slot; with HOLD it answers the tag under which the item is
now in service, the slot stays in use, and the flow of an ATOMIC queue's item is locked. The bank of
queues is in use; elsewhere a byte of a bank that is not in use (R23) is free, and none is written there.
Table 12.2, R303, R307: the codes of a push and a pop that fail; the queue, the pool and memory stay, but
that a pop takes a poisoned item out and frees it, storing nothing. A poisoned descriptor's items are
counted as stranded once. R304, Table 12.3: a push and a pop of one queue in one round, by two cores. At
DEPTH 0 the pop takes the pushed item by cut-through; where that is refused the item stays queued and the
push notifies. Above it the pop takes its item, the new one stands at the tail, DEPTH is as before, FULL
is not reported and no flag is set; a push that finds the pool empty answers POOL_EMPTY, the slot just
popped not being free yet. A pop that fails is applied first, and the push then alone. -/
def Obligations.QueuePopsAndFailures : Prop :=
  (∀ (n : Core) (rd rs1 rs2 : GReg) (s : State), s.atInstr n = true → s.drained n = true →
      s.canon = true →
      let m : AnyCore := ⟨n.val, by omega⟩
      let q := (s.g n rs1).toNat
      let a := (s.g n rs2).toNat
      let d := s.desc q
      let key := fun (x : Nat) => flowKey (s.rdBytes (slotAddr x) 8)
      let waiting := s.items d.depth d.head
      rangeWritable a 8 = true → a < 0x02000000 → s.poisoned (a / 8 * 8) 16 = false →
      s.clean (descAddr q) 16 = true → s.bankOpen (descAddr q) = true →
      q < 1048576 → s.hive.init = false → d.en = true → 0 < d.depth →
      (d.hold = true → s.hive.svc.length < tagCount) →
      ∀ before i later, s.items (min d.depth (if d.atomic then 16 else 1)) d.head = before ++ i :: later →
      (∀ x ∈ before, s.itemBad x = false ∧ s.flowLocked (key x) = true) → s.itemBad i = false →
      (d.atomic = true → s.flowLocked (key i) = false) →
      ∃ t, exec (.qpop m rd rs1 rs2) s = .next t ∧
        (∀ k, k < 8 → t.rd8 (a + k) =
          if s.bankOpen (a + k) then s.ld8 (slotAddr i + k) else s.rd8 (a + k)) ∧
        (t.desc q).depth = d.depth - 1 ∧ (2 ≤ d.depth → before = [] → (t.desc q).head = s.nextSlot i) ∧
        (waiting.Nodup → waiting.getLast? = some d.tail →
          t.items (d.depth - 1) (t.desc q).head = waiting.erase i ∧
          (2 ≤ d.depth → (waiting.erase i).getLast? = some (t.desc q).tail)) ∧
        t.hive.queued = s.hive.queued - 1 ∧
        (d.hold = false → retiredWith n rd 0 s t ∧ t.hive.svc = s.hive.svc ∧
          t.hive.used = kdel i s.hive.used) ∧
        (d.hold = true → t.hive.used = s.hive.used ∧ (d.atomic = true → t.flowLocked (key i) = true) ∧
          ∃ tag, tag < tagCount ∧ (∀ x ∈ s.hive.svc, x.1 ≠ tag) ∧
            (tag, ⟨i, if d.atomic then some (key i) else none⟩) ∈ t.hive.svc ∧
            t.hive.svc.length = s.hive.svc.length + 1 ∧
            retiredWith n rd (BitVec.ofNat 32 (2 ^ 15 + 2 ^ 16 * tag)) s t)) ∧
  (∀ (n : Core) (rd rs1 rs2 : GReg) (s : State), s.atInstr n = true → s.drained n = true →
      let m : AnyCore := ⟨n.val, by omega⟩
      let q := (s.g n rs1).toNat
      let a := (s.g n rs2).toNat
      let d := s.desc q
      let locked := fun (x : Nat) => d.atomic && s.flowLocked (flowKey (s.rdBytes (slotAddr x) 8))
      let look := s.items (min d.depth (if d.atomic then 16 else 1)) d.head
      let ok := q < 1048576 ∧ s.hive.init = false ∧ s.poisoned (descAddr q) 16 = false
      let bad := q < 1048576 ∧ s.hive.init = false ∧ s.poisoned (descAddr q) 16 = true
      let fails := fun (i : Instr) (code : Word) => ∃ t, exec i s = .next t ∧ retiredWith n rd code s t ∧
        t.hive = s.hive ∧ ∀ k, t.rd8 k = s.rd8 k
      let strands := fun (i : Instr) => ∃ t, exec i s = .next t ∧ retiredWith n rd 8 s t ∧
        t.flag F.HIV_STAT_POISON = true ∧ t.flag (lineStat 0x1F) = true ∧ t.hive.used = s.hive.used ∧
        t.hive.queued = s.hive.queued ∧ (∀ k, t.rd8 k = s.rd8 k) ∧
        (q ∉ s.hive.stranded → t.fld F.HIV_STRAND_ITEMS =
          (s.fld F.HIV_STRAND_ITEMS + d.depth) % 2 ^ F.HIV_STRAND_ITEMS.width) ∧
        (q ∈ s.hive.stranded → t.fld F.HIV_STRAND_ITEMS = s.fld F.HIV_STRAND_ITEMS)
      let push := Instr.qpush m rd rs1 rs2 none
      let pop := Instr.qpop m rd rs1 rs2
      (rangeReadable a 8 = true → s.clean a 8 = true →
        (1048576 ≤ q → fails push 9) ∧
        (q < 1048576 → s.hive.init = true → fails push 4) ∧
        (bad → strands push) ∧
        (ok → d.en = false → fails push 4) ∧
        (ok → d.en = true → s.hive.flush = some q → fails push 4) ∧
        (ok → d.en = true → s.hive.flush ≠ some q →
          (d.atomic = true → 6144 ≤ flowKey (s.rdBytes a 8) → fails push 7) ∧
          (d.atomic = true → flowKey (s.rdBytes a 8) < 6144 → 2 ^ d.limit ≤ d.depth → fails push 2) ∧
          (d.atomic = false → 2 ^ d.limit ≤ d.depth → fails push 2) ∧
          (d.atomic = false → d.depth < 2 ^ d.limit → s.hive.used.length = poolSize → fails push 3))) ∧
      (rangeWritable a 8 = true →
        (1048576 ≤ q → fails pop 9) ∧
        (q < 1048576 → s.hive.init = true → fails pop 4) ∧
        (bad → strands pop) ∧
        (ok → d.en = false → fails pop 4) ∧
        (ok → d.en = true → d.depth = 0 → fails pop 1) ∧
        (ok → d.en = true → 0 < d.depth → (∀ x ∈ look, s.itemBad x = false ∧ locked x = true) → fails pop 5) ∧
        (ok → d.en = true → ∀ before i later, look = before ++ i :: later →
          (∀ x ∈ before, s.itemBad x = false ∧ locked x = true) →
          (s.itemBad i = false → locked i = false → d.hold = true → tagCount ≤ s.hive.svc.length → fails pop 6) ∧
          (s.itemBad i = true → s.bankOpen (descAddr q) = true → ∃ t, exec pop s = .next t ∧ retiredWith n rd 8 s t ∧
            (t.desc q).depth = d.depth - 1 ∧ t.hive.used = kdel i s.hive.used ∧
            t.hive.queued = s.hive.queued - 1 ∧ t.hive.svc = s.hive.svc ∧ memKept (descAddr q) 16 s t ∧
            t.flag F.HIV_STAT_POISON = true ∧ t.flag (lineStat 0x1F) = true)))) ∧
  (∀ (n k : Core) (rd rs1 rs2 mrd mq ma : GReg) (s : State), n ≠ k → s.atInstr n = true → s.atInstr k = true →
      s.drained n = true → s.drained k = true → s.canon = true →
      let m : AnyCore := ⟨n.val, by omega⟩
      let o : AnyCore := ⟨k.val, by omega⟩
      let q := (s.g n rs1).toNat
      let a := (s.g n rs2).toNat
      let b := (s.g k ma).toNat
      let d := s.desc q
      let item := s.rdBytes a 8
      let waiting := s.items d.depth d.head
      let look := s.items (min d.depth (if d.atomic then 16 else 1)) d.head
      let locked := fun (x : List Byte) => d.atomic && s.flowLocked (flowKey x)
      let content := fun (x : Nat) => s.rdBytes (slotAddr x) 8
      let full := d.hold = true ∧ tagCount ≤ s.hive.svc.length
      s.g k mq = s.g n rs1 → rangeReadable a 8 = true → s.clean a 8 = true → rangeWritable b 8 = true →
      b < 0x02000000 → s.poisoned (b / 8 * 8) 16 = false → s.clean (descAddr q) 16 = true → q < 1048576 →
      s.bankOpen (descAddr q) = true → s.bankOpen (slotAddr 0) = true → s.flag F.CCD_INJ_ARM = false →
      s.hive.init = false → s.hive.flush ≠ some q → d.en = true → (d.atomic = true → flowKey item < 6144) →
      d.limit ≤ 21 → d.depth ≤ 2 ^ d.limit → s.hive.linkBad = [] → waiting.Nodup →
      (∀ x ∈ waiting, x ∈ s.hive.used ∧ s.itemBad x = false) → (0 < d.depth → waiting.getLast? = some d.tail) →
      let stored := fun (t : State) (x : List Byte) => ∀ j, j < 8 →
        t.rd8 (b + j) = if s.bankOpen (b + j) then x.getD j 0 else s.rd8 (b + j)
      let room := s.hive.used.length < poolSize
      let noFlag := fun (t : State) => ∀ x, t.htask x = s.htask x
      ∃ t, exec (.qpush m rd rs1 rs2 (some (o, mrd, mq, ma))) s = .next t ∧
        (d.depth = 0 → room → ¬full → locked item = false → retiredWith n rd 0 s t ∧ stored t item ∧
          (t.desc q).depth = 0 ∧ t.hive.queued = s.hive.queued ∧ noFlag t ∧
          (d.hold = false → retiredWith k mrd 0 s t ∧ t.hive.used = s.hive.used)) ∧
        (d.depth = 0 → room → full ∨ locked item = true → retiredWith n rd 0 s t ∧
          retiredWith k mrd (if locked item then 5 else 6) s t ∧ (t.desc q).depth = 1 ∧
          t.hive.queued = s.hive.queued + 1 ∧ (∀ j, j < 8 → t.rd8 (b + j) = s.rd8 (b + j)) ∧
          (d.nen = true → (t.htask d.ntask).flags.getLsbD d.nflag = true)) ∧
        (∀ before i later, look = before ++ i :: later → (∀ x ∈ before, locked (content x) = true) →
          locked (content i) = false →
          (¬full → stored t (content i) ∧ noFlag t ∧ (d.hold = false → retiredWith k mrd 0 s t) ∧
            (room → retiredWith n rd 0 s t ∧ (t.desc q).depth = d.depth ∧ t.hive.queued = s.hive.queued ∧
              ∃ j, j ∉ s.hive.used ∧ j < poolSize ∧ (∀ x, x < 8 → t.rd8 (slotAddr j + x) = item.getD x 0) ∧
                t.items d.depth (t.desc q).head = waiting.erase i ++ [j]) ∧
            (s.hive.used.length = poolSize → retiredWith n rd 3 s t ∧ (t.desc q).depth = d.depth - 1)) ∧
          (full → retiredWith k mrd 6 s t)) ∧
        (0 < d.depth → (∀ x ∈ look, locked (content x) = true) → retiredWith k mrd 5 s t) ∧
        (0 < d.depth → full ∨ (∀ x ∈ look, locked (content x) = true) →
          (∀ j, j < 8 → t.rd8 (b + j) = s.rd8 (b + j)) ∧
          (2 ^ d.limit ≤ d.depth → retiredWith n rd 2 s t ∧ (t.desc q).depth = d.depth) ∧
          (d.depth < 2 ^ d.limit → room → retiredWith n rd 0 s t ∧ (t.desc q).depth = d.depth + 1)))

/-- R306, Table 12.5: QUEUE_WR stores the settings of the selected queue when no check fails, and else
reports the code and leaves the descriptor; QUEUE_RD shows the settings and the depth. -/
def Obligations.QueueConfiguration : Prop :=
  ∀ (s : State),
    let q := s.fld F.HIV_QSEL_QUEUE
    let d := s.desc q
    s.clean (descAddr q) 16 = true → q < 1048576 → s.bankOpen (descAddr q) = true →
    (s.wrErr q ≠ 0 → ∃ t, exec .queueWr s = .next t ∧ t.fld F.HIV_QCMD_ERR = s.wrErr q ∧
      t.desc q = d ∧ t.hive = s.hive ∧ t.flag (lineStat 0) = true) ∧
    (s.wrErr q = 0 → ∃ t, exec .queueWr s = .next t ∧ t.fld F.HIV_QCMD_ERR = 0 ∧ t.hive = s.hive ∧
      memKept (descAddr q) 16 s t ∧
      t.desc q = { d with
        en := s.flag F.HIV_QCFG_EN, hold := s.flag F.HIV_QCFG_HOLD, atomic := s.flag F.HIV_QCFG_ATOMIC
        nen := s.flag F.HIV_QCFG_NEN, ntask := s.fld F.HIV_QCFG_NTASK, nflag := s.fld F.HIV_QCFG_NFLAG
        limit := s.fld F.HIV_QCFG_LIMIT_EXP }) ∧
    ∃ t, exec .queueRd s = .next t ∧ t.fld F.HIV_QCMD_ERR = 0 ∧ t.hive = s.hive ∧
      (∀ k, t.rd8 k = s.rd8 k) ∧
      t.flag F.HIV_QCFG_EN = d.en ∧ t.flag F.HIV_QCFG_HOLD = d.hold ∧
      t.flag F.HIV_QCFG_ATOMIC = d.atomic ∧ t.flag F.HIV_QCFG_NEN = d.nen ∧
      t.fld F.HIV_QCFG_NTASK = d.ntask ∧ t.fld F.HIV_QCFG_NFLAG = d.nflag ∧
      t.fld F.HIV_QCFG_LIMIT_EXP = d.limit % 32 ∧ t.fld F.HIV_QDEPTH_DEPTH = d.depth % 2 ^ F.HIV_QDEPTH_DEPTH.width

/-- R300, R302, R306, R309: a tag in service that is written to HIV_DONE frees its slot and its flow, and one that is
not sets REL_ERR and is counted. A flush returns one item a round (the model's rounds are the steps of an idle
device, a log entry) and runs until FLUSH_DONE empties its queue; SNAP shows how the pool
is divided, free, queued, in service and in transit (the model's operations are whole between two commands), and whether the parts balance; INIT holds operations off, and INIT_DONE leaves every
descriptor 0, every slot free, nothing in service and every task disabled, its flags and its mask cleared. -/
def Obligations.HiveMaintenance : Prop :=
  (∀ (tag : Fin 32768) (s : State),
      (∀ v, s.hive.svc.find? (fun x => x.1 == tag.val) = some (tag.val, v) →
        ∃ t, exec (.tagRelease tag) s = .next t ∧
          t.hive.svc = s.hive.svc.filter (fun x => x.1 != tag.val) ∧
          t.hive.used = kdel v.slot s.hive.used ∧ t.hive.queued = s.hive.queued ∧
          (∀ key, t.flowLocked key = s.hive.svc.any (fun x => x.1 != tag.val && x.2.flow == some key)) ∧
          { t with hive := s.hive } = s) ∧
      (s.hive.svc.find? (fun x => x.1 == tag.val) = none →
        ∃ t, exec (.tagRelease tag) s = .next t ∧ t.hive = s.hive ∧
          t.flag F.HIV_STAT_REL_ERR = true ∧
          t.fld F.HIV_ERRCNT_REL_CNT = min (2 ^ F.HIV_ERRCNT_REL_CNT.width - 1) (s.fld F.HIV_ERRCNT_REL_CNT + 1) ∧
          t.flag (lineStat 0x1E) = true)) ∧
  (∀ (s : State),
      let q := s.fld F.HIV_QSEL_QUEUE
      (s.hive.flush = none → s.clean (descAddr q) 16 = true →
        ∃ t, exec .flush s = .next t ∧ t.hive.flush = some q ∧ t.hive.used = s.hive.used ∧
          t.flag F.HIV_QCMD_FLUSH = true ∧ t.flag F.HIV_QCMD_BUSY = true ∧ ∀ k, t.rd8 k = s.rd8 k) ∧
      (∀ p, s.hive.flush = some p → p < 1048576 → s.clean (descAddr p) 16 = true →
        s.bankOpen (descAddr p) = true → s.flag F.CCD_INJ_ARM = false →
        (s.pending = [] → 0 < (s.desc p).depth → ∃ t, step s = .next t ∧ t.hive.flush = some p ∧
          (t.desc p).depth = (s.desc p).depth - 1 ∧ t.hive.queued = s.hive.queued - 1 ∧
          t.hive.used = kdel (s.desc p).head s.hive.used) ∧
        ∃ t, exec .flushDone s = .next t ∧ t.hive.flush = none ∧ t.flag F.HIV_QCMD_FLUSH = false ∧
          t.flag F.HIV_QCMD_BUSY = false ∧ (t.desc p).depth = 0 ∧
          t.hive.queued = s.hive.queued - (s.desc p).depth ∧
          (∀ i, i ∈ t.hive.used ↔ i ∈ s.hive.used ∧ i ∉ s.items (s.desc p).depth (s.desc p).head) ∧
          memKept (descAddr p) 16 s t) ∧
      (∃ t, exec .snap s = .next t ∧ t.hive = s.hive ∧ t.flag F.HIV_AUDIT_DONE = true ∧
        t.fld F.HIV_AUD_COUNT = (poolSize - s.hive.used.length) % 2 ^ F.HIV_AUD_COUNT.width ∧
        t.fld (F.HIV_AUD_COUNT.up 4) = s.hive.queued % 2 ^ F.HIV_AUD_COUNT.width ∧
        t.fld (F.HIV_AUD_COUNT.up 8) = s.hive.svc.length % 2 ^ F.HIV_AUD_COUNT.width ∧
        t.fld (F.HIV_AUD_COUNT.up 12) = 0 ∧
        t.flag F.HIV_AUDIT_BAL =
          decide (poolSize - s.hive.used.length + s.hive.queued + s.hive.svc.length = poolSize)) ∧
      (∃ t, exec .init s = .next t ∧ t.hive.init = true ∧ t.flag F.HIV_CTL_INIT = true ∧
        t.flag F.HIV_CTL_READY = false) ∧
      (s.hive.init = true → ∃ t, exec .initDone s = .next t ∧ t.hive.init = false ∧
        t.flag F.HIV_CTL_INIT = false ∧ t.flag F.HIV_CTL_READY = true ∧ t.hive.used = [] ∧
        t.hive.svc = [] ∧ t.hive.queued = 0 ∧ (∀ k, (t.htask k).en = false ∧ (t.htask k).flags = 0 ∧ (t.htask k).mask = 0) ∧
        ∀ k, t.rd8 k = if 0x02000000 ≤ k ∧ k < 0x03000000 then 0 else s.rd8 k))

/-- R310, R311: tasks and their flags. HIV_HEV and EVSET set flags; TASK_WR takes the staged settings and
keeps the flags; TASK_RD shows them; CLRF clears the flags; EVWAIT takes the flags of its mask, or waits
while none is set, and EVWAIT_WAKE completes it when one is. R312, R313: an offer is made to a core
without one when there is a task to offer, and names a task that is enabled, ready and bound to no core;
HIV_TAKE answers it and makes it the core's current task; YIELD gives the current task back; a write of a
weight clears every credit. -/
def Obligations.HiveTasksFlagsAndOffers : Prop :=
  (∀ (n : Core) (task : Fin 4096) (flag : Fin 64) (rd rs1 rs2 : GReg) (s : State),
      let m : AnyCore := ⟨n.val, by omega⟩
      let sel := s.fld F.HIV_TSEL_TASK
      (∃ t, exec (.hivHev task flag) s = .next t ∧ { t with hive := s.hive } = s ∧
        t.htask task = { s.htask task with flags := (s.htask task).flags ||| (1 <<< flag.val) } ∧
        ∀ k, k ≠ task.val → t.htask k = s.htask k) ∧
      (∃ t, exec .taskWr s = .next t ∧ (∀ k, k ≠ sel → t.htask k = s.htask k) ∧
        t.htask sel = { s.htask sel with
          mask := s.reg (R.HIV_TMASK_LO + 4) ++ s.reg R.HIV_TMASK_LO, group := s.fld F.HIV_TCFG_GROUP
          aff := s.fld F.HIV_TCFG_AFF, en := s.flag F.HIV_TCFG_EN }) ∧
      ((s.htask sel).group < 64 → (s.htask sel).aff < 256 → ∃ t, exec .taskRd s = .next t ∧ t.hive = s.hive ∧
        t.reg (R.HIV_TMASK_LO + 4) ++ t.reg R.HIV_TMASK_LO = (s.htask sel).mask ∧
        t.reg (R.HIV_TFLAG_LO + 4) ++ t.reg R.HIV_TFLAG_LO = (s.htask sel).flags ∧
        t.flag F.HIV_TCFG_EN = (s.htask sel).en) ∧
      (∃ t, exec .clrf s = .next t ∧ t.htask sel = { s.htask sel with flags := 0 } ∧
        ∀ k, k ≠ sel → t.htask k = s.htask k) ∧
      (s.atInstr n = true → s.drained n = true →
        (∃ t, exec (.evset m rs1 rs2) s = .next t ∧ (t.core n).pc = (s.core n).pc + 4 ∧
          (∀ r, t.g n r = s.g n r) ∧
          ∀ k, k < 4096 → t.htask k = if k = (s.g n rs1).toNat then
            { s.htask k with flags := (s.htask k).flags ||| (s.g n rs2).zeroExtend 64 } else s.htask k) ∧
        ∀ cur, (s.hcore n).cur = some cur →
          let f := (s.htask cur).flags &&& (s.g n rs1).zeroExtend 64
          ∃ t, exec (.evwait m rd rs1) s = .next t ∧
            (f ≠ 0 → retiredWith n rd (f.extractLsb' 0 32) s t ∧
              t.htask cur = { s.htask cur with flags := (s.htask cur).flags &&& ~~~f }) ∧
            (f = 0 → (t.core n).wait = .evwait rd (s.g n rs1) ∧ (t.core n).pc = (s.core n).pc ∧
              t.hive = s.hive ∧ ∀ r, t.g n r = s.g n r)) ∧
      (∀ cur mask, (s.core n).live = true → (s.core n).wait = .evwait rd mask →
        (s.hcore n).cur = some cur →
        let f := (s.htask cur).flags &&& mask.zeroExtend 64
        (f = 0 → exec (.evwaitWake n) s = .next s) ∧
        (f ≠ 0 → ∃ t, exec (.evwaitWake n) s = .next t ∧ (t.core n).wait = .none ∧
          (t.core n).pc = (s.core n).pc + 4 ∧ t.g n rd = (if rd.val = 0 then 0 else f.extractLsb' 0 32) ∧
          t.htask cur = { s.htask cur with flags := (s.htask cur).flags &&& ~~~f }))) ∧
  (∀ (n : Core) (i : Fin 16) (v : Word) (s : State),
      (∃ t, exec (.offer n) s = .next t ∧ (∀ k, t.htask k = s.htask k) ∧
        (∀ m, m ≠ n.val → t.hcore m = s.hcore m) ∧ (t.hcore n).cur = (s.hcore n).cur ∧
        (∀ k, (s.hcore n).offer = some k → t = s) ∧
        (∀ k, (s.hcore n).offer = none → (t.hcore n).offer = some k →
          s.offerable k n = true ∧ 0 < s.weight (s.htask k).group ∧ (t.core n).ipend.getLsbD 0 = true) ∧
        (∀ k, (s.hcore n).offer = none → s.offerable k n = true → (s.htask k).group < 64 →
          0 < s.weight (s.htask k).group → (t.hcore n).offer ≠ none)) ∧
      (∀ k, (s.hcore n).offer = some k → k < 4096 → ∃ t, exec (.hivTake n) s = .next t ∧
        t.hst.rdata = BitVec.ofNat 32 (2 ^ 31 + k) ∧ (t.hcore n).cur = some k ∧
        (t.hcore n).offer = none ∧ (t.core n).ipend.getLsbD 0 = false ∧ ∀ j, t.htask j = s.htask j) ∧
      ((s.hcore n).offer = none → ∃ t, exec (.hivTake n) s = .next t ∧ t.hst.rdata = 0 ∧
        { t with hst := s.hst } = s) ∧
      (∃ t, exec (.yield n) s = .next t ∧ (t.hcore n).cur = none ∧
        (t.hcore n).offer = (s.hcore n).offer ∧ (∀ m, m ≠ n.val → t.hcore m = s.hcore m) ∧
        { t with hive := s.hive } = s) ∧
      ∃ t, exec (.hivGwWrite i v) s = .next t ∧ t.reg (R.HIV_GW + 4 * i.val) = v ∧
        (∀ k, k ≠ R.HIV_GW + 4 * i.val → t.reg k = s.reg k) ∧
        ∀ m, m < 8 → (t.hcore m).credit = [] ∧ (t.hcore m).last = [] ∧
          (t.hcore m).cur = (s.hcore m).cur ∧ (t.hcore m).offer = (s.hcore m).offer)

/-! ### Registers, memory checking and the sweep (chapters 0, 1 and 2) -/

/-- R8 to R11, R13, R28: a whole-word write of a register that acts by its access codes alone (every
register of every block but those whose write is a command, is checked, waits or is half of a pair), or of
a channel's PWM settings before its next period start is due, sets its RW bits and, before the
commissioning lock, its RWL fields (those of CRK_ARMS, CRK_BAND, CRK_FLY, CRK_VBASE, SWM_HOLD, SWM_CFTHR
and MDG_PLAUS among them), clears the W1C bits written 1 and leaves every other bit, a RO field's too, and
register; one of an offset that holds no register has no effect. With the lock set RWL fields keep their
value, the other fields are written, and a write that carries another value for one of them is told as a
locked-field write. A partial write below the unassigned range is discarded. A read of the low register of
a pair returns it and latches the high one. An access to the unassigned range reports UNMAPPED whatever
bytes it covers; a read there returns 0 and a write is discarded. R17, R23, R26: a scrubbed line of a bank
in use loses its single-bit errors, which are counted, and keeps an uncorrectable word, which is reported;
where another write has reached the line, its single-bit errors stay as that write left them. Its
write-back consumes an error injection armed for its bank: the error stands in the line's first word (the
model's choice of word). A line of another bank is passed over. The scrub goes on with the next line and
starts over after the last. A starved scrub is told once (log entry "R17": from when the eight periods
count is the model's choice). -/
def Obligations.RegisterAccessAndScrub : Prop :=
  ((∀ (src : Src) (off : BitVec 24) (be : BitVec 4) (data : Word) (d : RegDesc) (s : State),
        s.noneWaits = true →
        (be ≠ 0xF → off.toNat < 0x1C0000 → exec (.registerWrite src off be data) s = .next s) ∧
        (0x1C0000 ≤ off.toNat → off.toNat < 0x800000 → ∃ t, exec (.registerWrite src off be data) s = .next t ∧
          t.flag (lineStat 0x02) = true ∧ (∀ a, t.rd8 a = s.rd8 a) ∧ regsTold [] s t ∧ t.untold s = s) ∧
        (off.toNat % 4 = 0 → off.toNat < 0x1C0000 → actsOnWrite off.toNat = false → regDesc off.toNat = none →
          exec (.registerWrite src off 0xF data) s = .next s) ∧
        (off.toNat % 4 = 0 → regDesc off.toNat = some d → actsOnWrite off.toNat = false ∨
            (0x1A0100 ≤ off.toNat ∧ off.toNat < 0x1A01C0 ∧ s.pwmDue ((off.toNat - 0x1A0100) / 16) = false) →
          let differs := s.locked = true ∧ (s.reg off.toNat ^^^ data) &&& d.rwl ≠ 0
          ∃ t, exec (.registerWrite src off 0xF data) s = .next t ∧
            (∀ i, i < 32 → (t.reg off.toNat).getLsbD i =
              if d.w1c.getLsbD i && data.getLsbD i then false
              else if d.rw.getLsbD i || (d.rwl.getLsbD i && !s.locked) then data.getLsbD i
              else (s.reg off.toNat).getLsbD i) ∧
            (¬differs → onlyRegs [off.toNat] s t) ∧
            (differs → t.flag (lineStat 0x01) = true ∧ t.untold s = s ∧ regsTold [off.toNat] s t)) ∧
        (∀ a ∈ [R.CRK_ARMS, R.CRK_BAND, R.CRK_FLY, R.CRK_VBASE, R.SWM_HOLD, R.SWM_CFTHR, R.MDG_PLAUS],
          actsOnWrite a = false ∧ ∃ x, regDesc a = some x ∧ x.rwl ≠ 0)) ∧
    (∀ (src : Src) (off : BitVec 24) (s : State),
        (readPairLo off.toNat = true → ∃ t, exec (.readLo src off) s = .next t ∧
          t.hst.rdata = s.view src off.toNat ∧
          tget (fun _ => none) t.hiLatch (off.toNat + 4) = some (s.view .host (off.toNat + 4)) ∧
          { t with hst := s.hst, hiLatch := s.hiLatch } = s) ∧
        (0x1C0000 ≤ off.toNat → off.toNat < 0x800000 → ∀ w : Bool,
          ∃ t, exec (.unmappedAccess off w) s = .next t ∧ t.flag (lineStat 0x02) = true ∧
            (∀ a, t.rd8 a = s.rd8 a) ∧ regsTold [] s t ∧ { t.untold s with hst := s.hst } = s ∧
            (w = true → t.hst = s.hst) ∧ (w = false → t.hst.rdata = 0)))) ∧
  (∀ (s : State),
      let k := s.ecc.scrubAt
      let armed := s.flag F.CCD_INJ_ARM = true ∧ s.fld F.CCD_INJ_TARGET ∈ [1, 2] ∧
        s.fld F.CCD_INJ_BANK = k / 0x40000
      (s.flag F.GCR_SCRUB_EN = false → exec (.scrubLine false) s = .next s) ∧
      (s.flag F.GCR_SCRUB_EN = true → k < 2097152 → ∀ raced : Bool, ∃ t, exec (.scrubLine raced) s = .next t ∧
        t.ecc.scrubAt = (if k + 1 < 2097152 then k + 1 else 0) ∧ (∀ a, t.rd8 a = s.rd8 a) ∧
        let lands := raced = false ∧ s.bankOpen (64 * k) = true ∧ armed
        (lands → t.flag F.CCD_INJ_ARM = false ∧ t.flag F.CCD_INJ_DONE = true) ∧
        (¬lands → t.reg R.CCD_INJ = s.reg R.CCD_INJ) ∧
        (∀ w, w ∈ t.ecc.ue ↔ w ∈ s.ecc.ue ∨ (lands ∧ s.fld F.CCD_INJ_TARGET = 2 ∧ w = 8 * k)) ∧
        (raced = true ∨ s.bankOpen (64 * k) = false → t.ecc.ce = s.ecc.ce ∧
          t.fld F.GCR_ECC_CE_COUNT = s.fld F.GCR_ECC_CE_COUNT) ∧
        (raced = false → s.bankOpen (64 * k) = true →
          (∀ w, w ∈ t.ecc.ce ↔ (w ∈ s.ecc.ce ∧ ¬(8 * k ≤ w ∧ w < 8 * k + 8)) ∨
            (lands ∧ s.fld F.CCD_INJ_TARGET = 1 ∧ w = 8 * k)) ∧
          t.fld F.GCR_ECC_CE_COUNT = min (2 ^ F.GCR_ECC_CE_COUNT.width - 1) (s.fld F.GCR_ECC_CE_COUNT +
            (s.ecc.ce.filter (fun w => decide (8 * k ≤ w) && decide (w < 8 * k + 8))).length)) ∧
        (s.bankOpen (64 * k) = false → t.regs = s.regs) ∧
        (s.bankOpen (64 * k) = true → s.poisoned (64 * k) 64 = true → t.flag F.GCR_ECC_UE_VALID = true ∧
          t.fld F.GCR_ECC_UE_LINE = k % 2 ^ F.GCR_ECC_UE_LINE.width ∧ t.flag (lineStat 0x03) = true)) ∧
      (s.flag F.GCR_SCRUB_EN = false ∨ s.flag F.GCR_SCRUB_STARVED = true → exec .scrubStarved s = .next s) ∧
      (s.flag F.GCR_SCRUB_EN = true → s.flag F.GCR_SCRUB_STARVED = false →
        ∃ t, exec .scrubStarved s = .next t ∧ t.flag F.GCR_SCRUB_STARVED = true ∧
          t.flag (lineStat 0x04) = true ∧
          t.now = max s.now (s.ecc.passAt + 8 * (max 4 (s.fld F.GCR_SCRUB_PERIOD_S) * 10 ^ 12)) ∧
          { t.untold s with now := s.now } = s ∧ regsTold [R.GCR_SCRUB] s t))

/-- R32 to R34, R227, R291: a legal period, epoch or window written while the device is quiet and no sweep runs
takes effect at once (bit 0 of a period is ignored); while sweeps run in those states it waits for the next
grid, outside them it is held, and an illegal period is rejected. RUN starts the grid at its first point at
least 4 µs ahead and advances every port's epoch; it is cleared only in Blocked or Servicing, and a task mode
that waited takes effect once no sweep runs. -/
def Obligations.SweepGridAndRunControl : Prop :=
  ∀ (src : Src) (reg : GridReg) (v : Word) (s : State),
    let p := v.toNat % 2 ^ 15
    let e := p / 2 * 2
    let write := Instr.sweepGridWrite src reg v
    let tasksIdle := fun (s : State) => ∀ k, k < 16 →
      (s.task k).pend = none ∧ ((s.task k).safeDue = false ∨ s.taskHeld k = true)
    (reg = .period → e < 1000 ∨ 20000 < e → ∃ t, exec write s = .next t ∧
      t.period = s.period ∧ t.crk.heldPeriod = s.crk.heldPeriod ∧ t.flag (lineStat 0x00) = true) ∧
    (reg = .period → 1000 ≤ e → e ≤ 20000 →
      (s.quiet = false ∨ s.running = true ∨ s.crk.commitDue ≠ none → ∃ t, exec write s = .next t ∧
        t.crk = { s.crk with heldPeriod := some (BitVec.ofNat 32 e), gridDue := s.crk.gridDue || s.quiet } ∧
        { t with crk := s.crk } = s) ∧
      (s.quiet = true → s.running = false → s.crk.commitDue = none → ∃ t, exec write s = .next t ∧
        t.period = e ∧ t.flag F.CRK_CTL_ALT = decide (e < 1600) ∧
        t.crk.heldPeriod = none)) ∧
    (reg = .epoch → s.quiet = false ∨ s.running = true ∨ s.crk.commitDue ≠ none →
      ∃ t, exec write s = .next t ∧ t.crk = { s.crk with
        heldEpoch := some (s.stagedHi R.CRK_EPOCH_LO ++ v), gridDue := s.crk.gridDue || s.quiet } ∧
      { t with crk := s.crk } = s) ∧
    (reg = .epoch → s.quiet = true → s.running = false → s.crk.commitDue = none →
      s.crk.heldPeriod = none → s.crk.heldWin = none → ∃ t, exec write s = .next t ∧
        t.reg64 R.CRK_EPOCH_LO = s.stagedHi R.CRK_EPOCH_LO ++ v ∧
        t.crk = { s.crk with heldEpoch := none, gridDue := false } ∧ { t with crk := s.crk, regs := s.regs } = s ∧
        regsKept [R.CRK_EPOCH_LO, R.CRK_EPOCH_HI] s t) ∧
    (reg = .win → s.quiet = false ∨ s.running = true ∨ s.crk.commitDue ≠ none →
      ∃ t, exec write s = .next t ∧
        t.crk = { s.crk with heldWin := some (BitVec.ofNat 32 p), gridDue := s.crk.gridDue || s.quiet } ∧
        { t with crk := s.crk } = s) ∧
    (reg = .win → s.quiet = true → s.running = false → s.crk.commitDue = none →
      s.crk.heldPeriod = none → s.crk.heldEpoch = none → ∃ t, exec write s = .next t ∧
        t.fld F.CRK_WIN_WIN_OFF = p ∧ t.crk.heldWin = none) ∧
    (s.running = true → exec (.sweepsRun src) s = .next s) ∧
    (s.running = false → 0 < s.period → ∃ t g, exec (.sweepsRun src) s = .next t ∧
      t.running = true ∧ t.crk.nextAdm = some g ∧ (∀ a, t.rd8 a = s.rd8 a) ∧
      s.now + 4 * 10 ^ 6 ≤ g ∧ g < s.now + 4 * 10 ^ 6 + s.period * 1000 ∧
      ((g : Int) + s.ffy.offset * 1000 - s.epochPs) % (s.period * 1000) = 0 ∧
      (t.crk.nextNum : Int) = ((g : Int) + s.ffy.offset * 1000 - s.epochPs) / (s.period * 1000) % 2 ^ 32 ∧
      ∀ q : Fin 6, t.fld (portFld q F.DFY_FSTAT_EPOCH) = (s.fld (portFld q F.DFY_FSTAT_EPOCH) + 1) % 256) ∧
    (s.running = false → exec (.sweepsStop src) s = .next s) ∧
    (s.running = true → s.quiet = true → s.crk.gridDue = false → tasksIdle s →
      ∃ t, exec (.sweepsStop src) s = .next t ∧ t.running = false ∧ t.crk.nextAdm = none ∧
        t.crk.commitDue = s.crk.commitDue) ∧
    (∀ k, k < 16 → s.running = true → s.quiet = true → s.crk.gridDue = false → s.crk.commitDue = none →
      (s.task k).pend = some mdHold → s.modeAct k = mdRun → tasksIdle (s.setTask k { s.task k with pend := none }) →
      ∃ t, exec (.sweepsStop src) s = .next t ∧ t.running = false ∧ t.modeAct k = mdHold ∧
        (t.task k).pend = none) ∧
    (s.running = true → s.quiet = false → ∃ t, exec (.sweepsStop src) s = .next t ∧ t.running = true ∧
      t.crk = s.crk ∧ t.flag (lineStat 0x00) = true)

/-- R18, R33, R34, R57, R173, R275, R276: the admission point starts the sweep of the next number: the settings
in effect are those of that instant, its commit point is due 700 ns later (660 ns with alternate halves), and
the next admission point one period later. Where values of a new grid wait, they take effect and the sweep is
that of the first point of the new grid. A core whose WAITSWEEP waits for the admission point takes the sweep
number in rd and goes on, and one whose COMMIT waits for this sweep or an earlier one does so with the number
it named. While a commit point is due, or no sweep is to start, the command has no effect. -/
def Obligations.AdmissionPointStartsTheSweep : Prop :=
  ∀ (s : State),
    (s.crk.nextAdm = none ∨ s.crk.commitDue ≠ none → exec .admissionPoint s = .next s) ∧
    (∀ a, s.crk.nextAdm = some a → s.crk.commitDue = none → s.crk.gridDue = false →
      ∃ t, exec .admissionPoint s = .next t ∧ t.now = max s.now a ∧
        t.sweep = BitVec.ofNat 32 s.crk.nextNum ∧ t.crk.admAt = a ∧
        t.crk.commitDue = some (a + 1000 * (if s.period < 1600 then 660 else 700)) ∧
        t.crk.nextAdm = some (a + 1000 * s.period) ∧
        t.crk.nextNum = (s.crk.nextNum + 1) % 2 ^ 32 ∧ t.crk.stage = .admitted ∧
        (∀ k, k ≠ R.CRK_SWEEP → k ≠ R.CRK_CTL → t.effReg k = s.reg k) ∧
        ∀ (n : Core) (rd : Nat), (s.core n).live = true →
          ((s.core n).wait = .sweep rd true → retiredWith n rd t.sweep s t) ∧
          (∀ k, (s.core n).wait = .commit rd k → 0 ≤ sdiff t.sweep k → retiredWith n rd k s t) ∧
          ((s.core n).wait = .sweep rd false → (t.core n).wait = .sweep rd false)) ∧
    (∀ a, s.crk.nextAdm = some a → s.crk.commitDue = none → s.crk.gridDue = true →
      let p := match s.crk.heldPeriod with
        | some v => v.toNat % 2 ^ 15
        | none => s.period
      let epoch := (s.crk.heldEpoch.getD (s.reg64 R.CRK_EPOCH_LO)).toNat
      0 < p → ∃ t, exec .admissionPoint s = .next t ∧ t.period = p ∧ t.reg64 R.CRK_EPOCH_LO = BitVec.ofNat 64 epoch ∧
        (∀ v, s.crk.heldWin = some v → t.reg R.CRK_WIN = v) ∧
        t.crk.heldPeriod = none ∧ t.crk.heldEpoch = none ∧ t.crk.heldWin = none ∧
        a ≤ t.crk.admAt ∧ t.crk.admAt < a + 1000 * p ∧
        ((t.crk.admAt : Int) + 1000 * s.ffy.offset - 1000 * (epoch : Int)) % (1000 * p) = 0 ∧
        t.sweep = BitVec.ofInt 32
          (((t.crk.admAt : Int) + 1000 * s.ffy.offset - 1000 * (epoch : Int)) / (1000 * p)) ∧
        t.crk.nextAdm = some (t.crk.admAt + 1000 * p) ∧
        t.crk.commitDue = some (t.crk.admAt + 1000 * (if p < 1600 then 660 else 700)))

/-- R18, R55, R124, R224: the chain of a sweep. Each part acts only after the part before it, and only
once: Hornet runs the admitted sweep (with EXEC_EN 0 nothing runs), Swarm takes what Hornet has left, and
frames are assembled for the lanes from what Swarm has selected. -/
def Obligations.ChainRunsInOrder : Prop :=
  ∀ (bad : Option (Arm × DLane × Fin 129)) (s : State),
    (s.crk.stage ≠ .admitted ∨ s.hrn.faulted = true → exec .hornetRun s = .next s) ∧
    (s.crk.stage = .admitted → s.hrn.faulted = false → s.flag F.HRN_CTL_EXEC_EN = false →
      ∃ t, exec .hornetRun s = .next t ∧ t.crk.stage = .hornetDone ∧ t.hrn.ran = false ∧
        { t with hrn := s.hrn, crk := s.crk } = s) ∧
    (s.crk.stage = .admitted → s.hrn.faulted = false → s.flag F.HRN_CTL_EXEC_EN = true →
      ∃ t, exec .hornetRun s = .next t ∧ t.hrn.work = (runProgram s (hornetCtx s)).1 ∧
        t.hrn.ran = true ∧
        ((runProgram s (hornetCtx s)).2 = false → t.crk.stage = .hornetDone ∧ t.regs = s.regs) ∧
        ((runProgram s (hornetCtx s)).2 = true → t.crk.stage = .admitted ∧
          t.flag F.HRN_STAT_EXEC_FAULT = true ∧ t.flag (lineStat 0x0F) = true)) ∧
    (s.crk.stage ≠ .hornetDone → exec .swarmSelection s = .next s) ∧
    (s.crk.stage = .hornetDone → ∃ t, exec .swarmSelection s = .next t ∧ t.crk.stage = .swarmDone ∧
      t.hrn = s.hrn ∧ t.crk.commitDue = s.crk.commitDue) ∧
    (s.crk.stage ≠ .swarmDone → exec (.frameAssembly bad) s = .next s) ∧
    (s.crk.stage = .swarmDone → s.injected 3 = false →
      ∃ t, exec (.frameAssembly none) s = .next t ∧ t.crk.stage = .assembled ∧
        (∀ f, f ∈ t.dfy.asm ↔ ∃ n l, n < 6 ∧ l < 8 ∧ s.mayStream n l = true ∧
          f = (laneKey n l, s.frameOf (s.frameCtx false) n l
            (fun k => tget (fun _ => {}) (s.arm n).work.cmds k))) ∧
        { t with dfy := s.dfy, crk := s.crk } = s)

/-- R21, R40 to R43: at the commit point a sweep whose chain is complete clears the count of late sweeps;
one whose chain is not is counted, flagged and reported as late, and its chain runs on until the next
admission point abandons it; either way no commit point is due any more, and a core whose WAITSWEEP waits for
the commit point takes the sweep number in rd and goes on (R275). Here no cyclic task is active and
no store of a stopped core waits. In Deblocked, a count at the limit asks for
the trip of the next admission point. -/
def Obligations.CommitPointEndsTheSweep : Prop :=
  ∀ (s : State),
    (s.crk.commitDue = none → exec .commitPoint s = .next s) ∧
    (∀ a, s.crk.commitDue = some a → s.noneWaits = true →
      (∀ k, k < 16 → s.modeAct k = mdStop ∧ (s.task k).pend = none ∧ (s.task k).done = false ∧
        (s.task k).safeDue = false) →
      ∃ t, exec .commitPoint s = .next t ∧ t.now = max s.now a ∧ t.crk.commitDue = none ∧
        (∀ (n : Core) (rd : Nat), (s.core n).live = true → (s.core n).wait = .sweep rd false →
          retiredWith n rd s.sweep s t) ∧
        (s.crk.stage = .assembled → t.crk.stage = .idle ∧ t.fld F.CRK_LATE_CONSEC = 0 ∧
          t.fld F.CRK_LATE_TOTAL = s.fld F.CRK_LATE_TOTAL) ∧
        (s.crk.stage ≠ .assembled → t.crk.stage = s.crk.stage ∧ t.flag F.CRK_LATE_FLAG = true ∧
          t.flag (lineStat 0x05) = true ∧
          t.fld F.CRK_LATE_TOTAL = min (2 ^ F.CRK_LATE_TOTAL.width - 1) (s.fld F.CRK_LATE_TOTAL + 1) ∧
          t.fld F.CRK_LATE_CONSEC =
            min (2 ^ F.CRK_LATE_CONSEC.width - 1) (s.fld F.CRK_LATE_CONSEC + 1))) ∧
    (s.opState ≠ stDeblocked → exec .lateLimit s = .next s) ∧
    (s.opState = stDeblocked → max 1 (s.fld F.CRK_LATE_LIMIT) ≤ s.fld F.CRK_LATE_CONSEC →
      s.crk.lateTrip = false → ∃ t, exec .lateLimit s = .next t ∧ t.crk.lateTrip = true ∧
        t.flag (lineStat 0x06) = true ∧ t.opState = stDeblocked)

/-- R46, R48, Tables 2.3 and 2.10: a state command written while none is pending becomes the pending one;
while one is, it is discarded and LOST is set, but BLOCK and STOP cancel a pending DEBLOCK_AT and take its
place. The pending command is then evaluated at the next admission point, where one follows: the operating
state, the result and what stays pending are those of the evaluation in the state that the admission point
has reached. A DEBLOCK_AT that waits is evaluated when it falls due. A command whose conditions hold
there, with no trip on the same point, is executed. R46 to R52, Tables 2.3 to 2.5: what an admission point
does with the operating state and the pending command. A standby rejects the command with NOT_ACTIVE. A
trip is applied, and a pending command is displaced with WRONG_STATE, but for a DEBLOCK_AT that is not
due; Cicada's BLOCK reaction does the same in Deblocked. DEBLOCK_AT waits for its time, and is rejected
with TIME_PAST when that lay more than a period back as it was first evaluated. A command is rejected with
WRONG_STATE outside its states and with the code of a condition of its own that fails, with the arms that
fail it in ARM_FAIL; with none it is executed: the state is the one it leads to, with cause 1. -/
def Obligations.StateCommands : Prop :=
  ((∀ s : State, ∀ p ∈ [(Instr.precharge, 1), (.readyCmd, 2), (.deblock, 3), (.block, 4), (.stop, 5), (.reset, 6),
        (.service, 7), (.deblockAt, 8)],
      let takes := s.crk.pend = none ∨ (s.crk.pend = some 8 ∧ (p.2 = 4 ∨ p.2 = 5))
      ∃ w t, exec p.1 s = .next t ∧ exec .admissionPoint w = .next t ∧
        { w with crk := s.crk, regs := s.regs } = s ∧ regsKept [R.CRK_CMD_STAT] s w ∧
        (takes → w.crk = { s.crk with pend := some p.2, dbSeen := false } ∧
          w.flag F.CRK_CMD_STAT_PEND = true ∧ w.flag F.CRK_CMD_STAT_LOST = s.flag F.CRK_CMD_STAT_LOST) ∧
        (¬takes → w.crk = s.crk ∧ w.flag F.CRK_CMD_STAT_LOST = true ∧
          w.flag F.CRK_CMD_STAT_PEND = s.flag F.CRK_CMD_STAT_PEND)) ∧
    (∀ s : State,
      (s.crk.nextAdm = none ∨ s.crk.commitDue ≠ none → s.sweepToStart = none) ∧
      (∀ num at_ w, s.sweepToStart = some (num, at_, w) →
        let u := (w.admitInputs num at_).1.stateAdmit
        ∃ t, exec .admissionPoint s = .next t ∧ t.reg R.CRK_STATE = u.reg R.CRK_STATE ∧
          t.reg R.CRK_CMD_STAT = u.reg R.CRK_CMD_STAT ∧ t.crk.pend = u.crk.pend ∧ t.crk.dbSeen = u.crk.dbSeen) ∧
      (∀ a, s.crk.nextAdm = some a → s.crk.pend = some 8 → s.crk.dbSeen = true →
        (1000 * (s.dbat : Int) ≤ (s.reach a).ffyPs →
          ∃ t, exec .deblockAtDue s = .next t ∧ exec .admissionPoint s = .next t) ∧
        ((s.reach a).ffyPs < 1000 * (s.dbat : Int) → exec .deblockAtDue s = .next s)) ∧
      (s.crk.nextAdm = none ∨ s.crk.pend ≠ some 8 ∨ s.crk.dbSeen = false → exec .deblockAtDue s = .next s)) ∧
    ∀ s : State, ∀ p ∈ [(Instr.precharge, 1, stPrecharge), (.readyCmd, 2, stReady), (.deblock, 3, stDeblocked),
        (.block, 4, stReady), (.stop, 5, stBlocked), (.reset, 6, stBlocked), (.service, 7, stServicing),
        (.deblockAt, 8, stDeblocked)],
      s.crk.pend = none → ∀ num at_ w, (commandWrite p.2.1 s).sweepToStart = some (num, at_, w) →
      let u := (w.admitInputs num at_).1
      u.role ∉ [roleStandby, roleArming] → u.tripCause = none → (u.ccd.block = true → u.opState ≠ stDeblocked) →
      u.cmdErr p.2.1 = (0, 0) → (p.2.1 = 8 → u.dbDue = true ∧ u.dbPast = false) →
      ∃ t, exec p.1 s = .next t ∧ t.opState = p.2.2 ∧ t.fld F.CRK_STATE_CAUSE = 1 ∧ t.crk.pend = none ∧
        t.flag F.CRK_CMD_STAT_PEND = false ∧ t.fld F.CRK_CMD_STAT_LAST = p.2.1 ∧ t.fld F.CRK_CMD_STAT_ERR = 0) ∧
  (∀ s : State,
      let en := fun (n : Nat) => n < 6 ∧ s.flagBit F.CRK_ARMS_ARM_EN n = true
      let topo := s.fld F.CRK_ARMS_TOPO
      let arms := s.fld F.CRK_ARMS_ARM_EN
      let used := fun (n : Nat) => (List.range (s.nSlots n)).map (fun k => s.cell (cellId n k))
      let mv := fun (n : Nat) (c : CellSt) => 100 * c.vmed (s.swm n F.SWM_CTL_MED)
      let incomplete := fun (n : Nat) => en n ∧ s.armSet n = false
      let edges := fun (n : Nat) => en n ∧ s.period / s.sep n < 4
      let outside := fun (n : Nat) => en n ∧
        (((used n).filter (fun c => c.unav == 0)).length < s.swm n F.SWM_CFG_N_MIN ∨
          ∃ c ∈ used n, c.unav = 0 ∧ (mv n c < s.fld F.CRK_BAND_LO_PCT * c.vnom ∨
            s.fld F.CRK_BAND_HI_PCT * c.vnom < mv n c))
      let untracked := fun (n : Nat) => en n ∧ ¬(16 ≤ s.crk.commits ∧ ∀ e ∈ s.crk.track,
        e.getD n 0 ≤ ((s.fld F.CRK_FLY_DV_MAX * s.fld F.CRK_VBASE_VBASE * 100 : Nat) : Int))
      let topoBad := ¬((topo = 0 ∧ arms = 63 ∨ (topo = 1 ∨ topo = 2) ∧ arms = 7 ∨ topo = 3 ∧ arms = 15 ∨
          topo = 4 ∧ arms = 3 ∨ topo = 5 ∧ arms ≠ 0) ∧
        (topo = 1 ∨ topo = 2 → ∀ n, en n → ∀ c ∈ used n, c.flags.testBit 0 = true → c.flags.testBit 1 = true))
      let noLock := s.acLive = true ∧ ¬∃ t, s.crk.lockFrom = some t ∧
        max 20 (s.fld F.CRK_FLY_LOCK_MS) * 10 ^ 9 ≤ s.crk.admAt - t
      let trackBad := s.fld F.CRK_VBASE_VBASE = 0 ∨ (s.live = true ∧ ∃ n, untracked n)
      let released := s.flag F.MTS_STAT_BLOCK_ALL = false ∧ s.fld F.MTS_STAT_TRIP = 0
      let pre := fun (code : Nat) => code = 1 ∨ code = 3 ∨ code = 8
      let band := fun (code : Nat) => code = 2 ∨ code = 3 ∨ code = 8
      let fly := fun (code : Nat) => code = 3 ∨ code = 8
      let fails := fun (code err : Nat) =>
        (pre code ∧ (err = 2 ∧ s.flag F.MTS_STAT_CONFIRMED = false ∨ err = 9 ∧ s.permit = false ∨
          err = 3 ∧ (∃ n, incomplete n) ∨ err = 8 ∧ topoBad ∨ err = 9 ∧ s.anyTrip = true ∨
          err = 0xB ∧ s.crk.winShort = true ∨ err = 0xC ∧ ∃ n, edges n)) ∨
        (band code ∧ err = 4 ∧ ∃ n, outside n) ∨
        (fly code ∧ (err = 5 ∧ noLock ∨ err = 6 ∧ trackBad)) ∨
        (code = 6 ∧ err = 9 ∧ (¬released ∨ s.anyTrip = true)) ∨
        (code = 7 ∧ (err = 9 ∧ (s.anyTrip = true ∨ s.flag F.MTS_STAT_FTM = true) ∨
          err = 0xB ∧ s.crk.winShort = true))
      let rows := [(1, [stBlocked], stPrecharge), (2, [stPrecharge], stReady), (3, [stReady], stDeblocked),
        (4, [stDeblocked], stReady), (5, [stPrecharge, stReady, stDeblocked, stServicing], stBlocked),
        (6, [stTripped], stBlocked), (7, [stBlocked], stServicing), (8, [stReady], stDeblocked)]
      let ends := fun (code err : Nat) (t : State) => t.crk.pend = none ∧
        t.flag F.CRK_CMD_STAT_PEND = false ∧ t.fld F.CRK_CMD_STAT_LAST = code ∧ t.fld F.CRK_CMD_STAT_ERR = err
      let evaluated := fun (code : Nat) (froms : List Nat) (dest : Nat) (t : State) =>
        ends code (t.fld F.CRK_CMD_STAT_ERR) t ∧
        (s.opState ∉ froms → t.fld F.CRK_CMD_STAT_ERR = 1) ∧
        (s.opState ∈ froms → (t.fld F.CRK_CMD_STAT_ERR = 0 ↔ ∀ e, ¬fails code e) ∧
          (t.fld F.CRK_CMD_STAT_ERR ≠ 0 → fails code (t.fld F.CRK_CMD_STAT_ERR))) ∧
        (∀ n, n < 6 → (t.flagBit F.CRK_CMD_STAT_ARM_FAIL n = true ↔
          (t.fld F.CRK_CMD_STAT_ERR = 3 ∧ incomplete n) ∨ (t.fld F.CRK_CMD_STAT_ERR = 4 ∧ outside n) ∨
          (t.fld F.CRK_CMD_STAT_ERR = 6 ∧ (if s.fld F.CRK_VBASE_VBASE = 0 then en n else untracked n)) ∨
          (t.fld F.CRK_CMD_STAT_ERR = 0xC ∧ edges n))) ∧
        (t.fld F.CRK_CMD_STAT_ERR = 0 → t.opState = dest ∧ t.fld F.CRK_STATE_CAUSE = 1 ∧
          (dest = stDeblocked → t.flag F.CRK_STATE_FLYING = s.live)) ∧
        (t.fld F.CRK_CMD_STAT_ERR ≠ 0 → t.reg R.CRK_STATE = s.reg R.CRK_STATE)
      let mirrors := s.role = roleStandby ∨ s.role = roleArming
      let waits := s.crk.pend = some 8 ∧ s.crk.dbSeen = true ∧ s.ffyPs < 1000 * (s.dbat : Int)
      let displaced := fun (t : State) => (waits → t.crk.pend = some 8) ∧
        ∀ c, c < 16 → s.crk.pend = some c → ¬waits → ends c 1 t
      let trips := s.flag F.MTS_STAT_FTM = false ∧
        (s.crk.mtsTrip = true ∨ s.crk.lateTrip = true ∨ s.ccd.trip = true)
      let reacts := s.ccd.block = true ∧ s.opState = stDeblocked
      let t := s.stateAdmit
      (mirrors → t.reg R.CRK_STATE = s.reg R.CRK_STATE ∧ ∀ c, c < 16 → s.crk.pend = some c → ends c 7 t) ∧
      (¬mirrors → trips → displaced t ∧
        (s.opState = stTripped → t.reg R.CRK_STATE = s.reg R.CRK_STATE) ∧
        (s.opState ≠ stTripped → t.opState = stTripped ∧ t.fld F.CRK_STATE_CAUSE =
          (if s.crk.mtsTrip then 2 else if s.crk.lateTrip then 4 else 3))) ∧
      (¬mirrors → ¬trips → reacts → displaced t ∧ t.opState = stReady ∧ t.fld F.CRK_STATE_CAUSE = 3) ∧
      (¬mirrors → ¬trips → ¬reacts →
        (s.crk.pend = none → t.reg R.CRK_STATE = s.reg R.CRK_STATE ∧ t.crk.pend = none) ∧
        (∀ r ∈ rows, s.crk.pend = some r.1 →
          (r.1 = 8 → s.crk.dbSeen = false → 1000 * ((s.dbat : Int) + s.period) < s.ffyPs →
            ends 8 0xA t ∧ t.reg R.CRK_STATE = s.reg R.CRK_STATE) ∧
          (r.1 = 8 → s.ffyPs < 1000 * (s.dbat : Int) →
            t.crk.pend = some 8 ∧ t.crk.dbSeen = true ∧ t.regs = s.regs) ∧
          (r.1 = 8 → 1000 * (s.dbat : Int) ≤ s.ffyPs →
            s.crk.dbSeen = true ∨ s.ffyPs ≤ 1000 * ((s.dbat : Int) + s.period) →
            evaluated r.1 r.2.1 r.2.2 t) ∧
          (r.1 ≠ 8 → evaluated r.1 r.2.1 r.2.2 t))))

/-- R44, R46, R50: on a module with power, the operating state changes only at an admission point and only by a
transition of Table 2.3, but for the Blocked of power-up and power-fail and for what a standby mirrors: by a
command with cause 1, by Cicada's BLOCK reaction with cause 3, or by a trip. -/
def Obligations.StateChangesOnlyByTransitions : Prop :=
  ∀ (c : Instr) (s t : State), exec c s = .next t → s.mod.power ≠ .off → t.opState ≠ s.opState →
    s.role ∉ [roleStandby, roleArming] → t.role ∉ [roleStandby, roleArming] →
    (t.opState = stBlocked ∧ (s.mod.power = .starting ∨ t.mod.power ≠ .ready)) ∨
    (s.crk.nextAdm ≠ none ∧ s.crk.commitDue = none ∧ t.crk.commitDue ≠ none ∧
      ((t.opState = stTripped ∧ t.fld F.CRK_STATE_CAUSE ∈ [2, 3, 4]) ∨
       (s.opState = stDeblocked ∧ t.opState = stReady ∧ t.fld F.CRK_STATE_CAUSE = 3) ∨
       (t.fld F.CRK_STATE_CAUSE = 1 ∧ (s.opState, t.opState) ∈
        [(stBlocked, stPrecharge), (stPrecharge, stReady), (stReady, stDeblocked), (stDeblocked, stReady),
         (stPrecharge, stBlocked), (stReady, stBlocked), (stDeblocked, stBlocked), (stServicing, stBlocked),
         (stBlocked, stServicing), (stTripped, stBlocked)])))

/-- R42, R285, R287, R291, R293: what a commit point makes visible. On an ACTIVE module every streaming arm
lane without an impairment sends the frame that was assembled for it, and after a late sweep one that repeats
the last commands, marked as a repeat. The outputs of a task whose DONE was set are written to their
destinations, a task that goes to Stop has its safe image written there instead, and a cycle that starts has
its inputs copied and its sweep and time noted. Here no other task has anything to do, and no Termite job
runs. -/
def Obligations.CommitMakesVisible : Prop :=
  (∀ (s : State) (a : Nat) (n l : Nat), s.crk.commitDue = some a → s.noneWaits = true → n < 6 → l < 8 →
    (∀ k, k < 16 → s.modeAct k = mdStop ∧ (s.task k).pend = none ∧ (s.task k).done = false ∧
      (s.task k).safeDue = false) →
    s.active = true → s.streams n l = true →
    s.impMode n l ∉ [impDrop, impCorruptSlot, impCorruptHdr, impReorder] →
    let epoch := s.fld (portFld n F.DFY_FSTAT_EPOCH)
    (∀ f, s.crk.stage = .assembled →
      s.dfy.asm.filter (fun x => x.1 / 16 == n && x.1 % 16 == l) = [(laneKey n l, f)] →
      ∃ t, exec .commitPoint s = .next t ∧ (t.lane n l).frame = some (f.stamp epoch) ∧ t.dfy.asm = []) ∧
    (s.crk.stage ≠ .assembled →
      ∃ t, exec .commitPoint s = .next t ∧ t.dfy.asm = [] ∧
        (t.lane n l).frame = some ((s.frameOf (s.frameCtx true) n l (s.repeatCmd n)).stamp epoch))) ∧
  ∀ (s : State) (a : Nat) (k : Fin 16), s.crk.commitDue = some a → s.noneWaits = true →
    (∀ j, j < 16 → j ≠ k.val → s.modeAct j = mdStop ∧ (s.task j).pend = none ∧ (s.task j).done = false ∧
      (s.task j).safeDue = false) →
    (∀ e, e < 2 → s.trmBusy e = false) →
    s.taskHeld k = false → s.plainImage k → (s.task k).safeDue = false →
    let b := s.image k
    (s.modeAct k = mdRun → (s.task k).pend = none → (s.task k).done = true →
      s.running = false ∨ s.cycleDue k s.sweep = false →
      ∃ t, exec .commitPoint s = .next t ∧ outputsWritten k 0x2C0 s t ∧ (t.task k).done = false ∧
        t.modeAct k = mdRun) ∧
    (s.modeAct k ≠ mdStop → (s.task k).pend = some mdStop →
      s.running = false ∨ s.cycleDue k s.sweep = false →
      ∃ t, exec .commitPoint s = .next t ∧ outputsWritten k 0x340 s t ∧ t.modeAct k = mdStop ∧
        t.taskBusy k = false ∧ (t.task k).done = false ∧ (t.task k).pend = none) ∧
    (s.modeAct k = mdRun → (s.task k).pend = none → (s.task k).done = false → s.running = true →
      s.cycleDue k s.sweep = true → s.taskBusy k = false →
      (∀ i, i < s.inWords k → let src := (s.rd32 (b + 0x40 + 4 * i)).toNat
        src % 4 = 0 ∧ inProgram src 4 = true ∧ (src + 4 ≤ b ∨ b + 1024 ≤ src)) →
      ∃ t, exec .commitPoint s = .next t ∧ t.taskBusy k = true ∧ t.consec k = 0 ∧
        (t.task k).start = s.sweep ∧ t.rd32 (b + 8) = s.sweep ∧ t.rd32 (b + 0xC) = t.shortTime ∧
        (∀ i, i < s.inWords k →
          t.rd32 (b + 0x140 + 4 * i) = s.rd32 (s.rd32 (b + 0x40 + 4 * i)).toNat) ∧
        ∀ x, x < 0x02000000 → ¬(b ≤ x ∧ x < b + 1024) → t.rd8 x = s.rd8 x)

/-! ### Swarm's commands (chapters 3 and 4) -/

/-- R44, R45, R58, R59, R63 to R67, R69 to R71, R78, R79, R93, R97 to R102, R114: what each arm's Swarm
commands. A slot in Permanent bypass is commanded so. Every other slot is commanded Blocked outside
Deblocked, Precharge and arm test, and on an arm that is not enabled, or stays as it is until its change,
deferred, finds room in a window, which in Tripped none does; Blocked or Bypassed in Precharge,
where an unavailable slot is commanded Blocked (the model's choice between R78 and Table 4.7). In Deblocked,
with no hook, the candidates are ranked by their keys; the target set is the first of them that stay within
the reference; the cells that end the window inserted are the target set on the first sweep, and else as
many, from the target set or inserted before, within the edge budget; the fractional cell is the next
candidate; every other available cell ends Bypassed on the first sweep. Outside the sweeps of R59 the edges
of an arm lie at least SEP apart in the window, the last no later than SEP before its end; in arm test also
from those of the window before. -/
def Obligations.SwarmSelects : Prop :=
  (∀ s : State, s.crk.stage ≠ .hornetDone → exec .swarmSelection s = .next s) ∧
  ∀ s : State, s.crk.stage = .hornetDone → ∃ t, exec .swarmSelection s = .next t ∧ ∀ n, n < 6 →
    let i := (s.outNow 1 n).toInt
    let vref := (s.outNow 0 n).toInt
    let l := s.slotsIn n i
    let w := (t.arm n).work
    let en := (s.effFld F.CRK_ARMS_ARM_EN).testBit n
    let testing := en = true ∧ s.opState = stServicing ∧ (s.effFld F.CRK_STATE_ARM_TEST).testBit n = true
    let cmd := fun (x : SlotIn) => tget (fun _ => {}) w.cmds x.slot
    let last := fun (x : SlotIn) => if (cmd x).et2.isSome then codeBypassed else (cmd x).code
    let sep := s.sep n
    let apart := ∀ e ∈ w.edges, e + sep ≤ s.period
    let entry := s.entrySweep
    -- Permanent bypass
    (∀ x ∈ l, x.adr = true → x.perm = true → (cmd x).code = codePermanent ∧ (cmd x).et1 = none) ∧
    -- Blocked
    (en = false ∨ (s.opState ≠ stDeblocked ∧ s.opState ≠ stPrecharge ∧ ¬testing) →
      (∀ x ∈ l, x.adr = true → x.perm = false → (cmd x).et2 = none ∧
        ((cmd x).code = codeBlocked ∨ s.opState ≠ stTripped ∧ (s.crk.blockIn = false ∨ entry = false) ∧
          (cmd x).code = x.prev ∧ x.slot ∈ w.deferred) ∧
        (s.crk.blockIn = true → entry = true →
          (cmd x).et1 = if x.prev = codeBlocked then none else some 0)) ∧
      (s.crk.blockIn = false ∨ entry = false →
        apart ∧ w.edges.Pairwise (fun a b => a + sep ≤ b ∨ b + sep ≤ a))) ∧
    -- Precharge
    (en = true → s.opState = stPrecharge →
      (∀ x ∈ l, x.adr = true → x.perm = false →
        (cmd x).code ∈ [codeBlocked, codeBypassed] ∧ (cmd x).et2 = none ∧
        (x.unav ≠ 0 → (cmd x).code ∈ [codeBlocked, x.prev])) ∧
      (20 ≤ sep → 4 * sep ≤ s.period → (∀ x ∈ l, x.prev ∉ [codeInserted, codeNegative]) → apart ∧
        w.edges.Pairwise (fun a b => a + sep ≤ b ∨ b + sep ≤ a))) ∧
    -- arm test
    (testing → apart ∧ w.edges.Pairwise (fun a b => a + sep ≤ b ∨ b + sep ≤ a) ∧
      ∀ e ∈ w.edges, ∀ p ∈ (s.arm n).prevEdges, p + sep ≤ e + s.period ∨ e + s.period + sep ≤ p) ∧
    -- Deblocked
    (en = true → s.opState = stDeblocked → entry = false → 20 ≤ sep → 4 * sep ≤ s.period →
      apart ∧ w.edges.Pairwise (fun a b => a + sep ≤ b ∨ b + sep ≤ a)) ∧
    (en = true → s.opState = stDeblocked → s.swm n F.SWM_CTL_PRE_HOOK_EN ≠ 1 →
      s.swm n F.SWM_CTL_KEY_HOOK_EN ≠ 1 → (∀ x ∈ l, x.perm = true → x.unav ≠ 0) →
      let neg := decide (vref < 0)
      let ins := if neg then codeNegative else codeInserted
      let cur := if neg then -i else i
      let dead : Int := if neg = (s.arm n).polNeg then 1000 * s.swm n F.SWM_DIR_I_DEAD else 0
      let dis := if dead < cur then false else if cur < -dead then true else (s.arm n).dirDis
      let key := fun (x : SlotIn) => (if dis then -x.vpred else x.vpred) -
        (if x.prev = ins then 100 * (s.swm n F.SWM_SEL_HYST : Int) else 0)
      let mine := l.filter (fun x => x.unav == 0 && x.adr)
      let held := l.filter (fun x => x.unav == 0 && !x.adr && x.prev == ins)
      let sum := fun (m : List SlotIn) => (m.map (fun x => x.vpred)).sum
      let lim := (vref.natAbs : Int) - sum held
      let fin := mine.filter (fun x => last x == ins)
      let b := min (min 96 (max 4 (min 96 (s.swm n F.SWM_SEL_EDGE_MAX)))) (s.period / sep) - 2
      w.dirDis = dis ∧ w.polNeg = neg ∧ w.nIns = fin.length + held.length ∧
      ∃ order : List SlotIn, ∃ N : Nat,
        order.Perm (mine.filter (fun x => decide (1000 ≤ x.vpred) && (x.fb || !neg))) ∧
        order.Pairwise (fun x y => key x < key y ∨ (key x = key y ∧ x.slot < y.slot)) ∧
        N ≤ order.length ∧ (∀ m, 1 ≤ m → m ≤ N → sum (order.take m) ≤ lim) ∧
        (N < order.length → lim < sum (order.take (N + 1))) ∧ w.sat = decide (N = order.length) ∧
        w.fslot = (if w.edgeLim then none else (order.find? (fun x => last x != ins)).map (fun x => x.slot)) ∧
        (∀ x, w.edgeLim = false → order.find? (fun x => last x != ins) = some x →
          w.frac = if (vref.natAbs : Int) ≤ sum fin + sum held then 0
            else min 65535 (65536 * ((vref.natAbs : Int) - (sum fin + sum held)) / x.vpred).toNat) ∧
        (entry = true → w.edgeLim = false ∧ (∀ x ∈ mine, last x = ins ↔ x ∈ order.take N) ∧
          (∀ x ∈ mine, x ∉ order.take N → last x = codeBypassed) ∧
          ∀ x ∈ mine, (cmd x).et1 = (if (cmd x).code = x.prev then none else some 0)) ∧
        (entry = false → (w.edgeLim = false → fin.length = N) ∧
          (∀ x ∈ fin, x ∈ order.take N ∨ x.prev = ins) ∧
          (mine.filter (fun x => some x.slot != w.fslot && ((x.prev == ins) != (last x == ins) ||
            (x.prev == insCode (!neg) && last x != x.prev && !((order.take N).contains x))))).length ≤ b) ∧
        (∀ x ∈ mine, last x ∈ [ins, codeBypassed, x.prev]) ∧
        ∀ x ∈ l, x.adr = true → x.perm = false → x.unav ≠ 0 →
          last x ∈ [if x.unav.testBit 0 then codeBlocked else codeBypassed, x.prev])

/-! ### Arms: tests, hooks, tables, delay calibration (chapters 3 and 4) -/

/-- R13, R79, R84, R87, R88, R113: GO asks for a test list in arm test; LOAD and REFRESH ask for a check and
copy; a request while one is pending has no effect. The check and copy counts the single-bit errors it
corrects, and either reports the first error it finds, and changes nothing in use, or leaves a copy that
waits for the admission point; a refresh that 1,000 sweeps have not seen complete is starved; CLR asks
for an active record's end. -/
def Obligations.ArmRequests : Prop :=
  ∀ (n : Arm) (slot : Slot) (s : State),
    let id := cellId n slot
    let bank := hookBank n (1 - s.fld (swmFld n F.SWM_HOOK_ACT))
    let chk := F.GCR_ECC_CE_COUNT.addr
    let corrected := fun (t : State) (hit : Nat → Bool) =>
      t.fld F.GCR_ECC_CE_COUNT = min (2 ^ F.GCR_ECC_CE_COUNT.width - 1)
        (s.fld F.GCR_ECC_CE_COUNT + (s.ecc.ce.filter hit).length) ∧
      t.ecc.ce = s.ecc.ce.filter (fun w => !(hit w))
    (s.armTestNow n = false ∨ s.flag (swmFld n F.SWM_TEST_GO) = true → exec (.testGo n) s = .next s) ∧
    (s.armTestNow n = true → s.flag (swmFld n F.SWM_TEST_GO) = false → ∃ t, exec (.testGo n) s = .next t ∧ (t.arm n).testGo = true ∧
      t.flag (swmFld n F.SWM_TEST_GO) = true ∧ onlyArm n [(swmFld n F.SWM_TEST_GO).addr] s t) ∧
    (s.flag (swmFld n F.SWM_HOOK_LOAD) = true → exec (.hookLoad n) s = .next s) ∧
    (s.flag (swmFld n F.SWM_HOOK_LOAD) = false → ∃ t, exec (.hookLoad n) s = .next t ∧
      t.arm n = { s.arm n with hookBusy := true } ∧ t.flag (swmFld n F.SWM_HOOK_LOAD) = true ∧
      onlyArm n [(swmFld n F.SWM_HOOK_LOAD).addr] s t) ∧
    ((s.arm n).hookBusy = false → exec (.hookLoadDone n) s = .next s) ∧
    ((s.arm n).hookBusy = true → s.hookCheck bank = none → s.injected 5 = false →
      ∃ t, exec (.hookLoadDone n) s = .next t ∧
        t.arm n = { s.arm n with
          hookBusy := false
          hookNew := some
            { pre := s.words (bank + 4) (bitsOf (s.rd32 bank) 0 8)
              key := s.words (bank + 0x200) (bitsOf (s.rd32 bank) 16 8)
              bad := false } } ∧
        t.fld (swmFld n F.SWM_HOOK_ERR) = 0 ∧
        t.fld (swmFld n F.SWM_HOOK_ACT) = s.fld (swmFld n F.SWM_HOOK_ACT) ∧
        { t.untold s with arms := s.arms, ecc := s.ecc } = s ∧
        regsTold [(swmFld n F.SWM_HOOK_LOAD).addr, chk] s t) ∧
    (∀ e i k, (s.arm n).hookBusy = true → s.hookCheck bank = some (e, i, k) →
      ∃ t, exec (.hookLoadDone n) s = .next t ∧ t.arm n = { s.arm n with hookBusy := false } ∧
        t.fld (swmFld n F.SWM_HOOK_ERR) = e % 2 ^ F.SWM_HOOK_ERR.width ∧
        t.fld (swmFld n F.SWM_HOOK_ERR_INDEX) = i % 2 ^ F.SWM_HOOK_ERR_INDEX.width ∧
        t.flag (swmFld n F.SWM_HOOK_ERR_HOOK) = k ∧ t.flag (swmFld n F.SWM_HOOK_LOAD) = false ∧
        { t.untold s with arms := s.arms, ecc := s.ecc } = s) ∧
    ((s.arm n).hookBusy = true → ∃ t, exec (.hookLoadDone n) s = .next t ∧
      corrected t (fun w => (bank / 8 ≤ w && w * 8 < bank + 4 + 4 * min 64 (bitsOf (s.rd32 bank) 0 8)) ||
        (bank / 8 + 64 ≤ w && w * 8 < bank + 0x200 + 4 * min 16 (bitsOf (s.rd32 bank) 16 8)))) ∧
    ((s.arm n).refresh = true → ∃ t, exec (.refreshDone n) s = .next t ∧
      corrected t (fun w => cellTable n 0 / 8 ≤ w && w < cellTable n 0 / 8 + 2 * s.tableSlots n)) ∧
    (s.flag (swmFld n F.SWM_TBL_REFRESH) = true → exec (.refresh n) s = .next s) ∧
    (s.flag (swmFld n F.SWM_TBL_REFRESH) = false → ∃ t, exec (.refresh n) s = .next t ∧
      t.arm n = { s.arm n with refresh := true, refreshSweeps := 0 } ∧
      t.flag (swmFld n F.SWM_TBL_REFRESH) = true ∧ onlyArm n [(swmFld n F.SWM_TBL_REFRESH).addr] s t) ∧
    ((s.arm n).refresh = false → exec (.refreshDone n) s = .next s) ∧
    ((s.arm n).refresh = true → s.tableCheck n = none → ∃ t, exec (.refreshDone n) s = .next t ∧
      (t.arm n).refresh = false ∧
      (t.arm n).tableNew = some ((List.range (s.tableSlots n)).map (s.tableEntry n)) ∧
      t.fld (swmFld n F.SWM_TBL_ERR) = 0 ∧ { t.untold s with arms := s.arms, ecc := s.ecc } = s ∧
      regsTold [(swmFld n F.SWM_TBL_ERR).addr, chk] s t) ∧
    (∀ e i, (s.arm n).refresh = true → s.tableCheck n = some (e, i) →
      ∃ t, exec (.refreshDone n) s = .next t ∧ t.arm n = { s.arm n with refresh := false } ∧
        t.fld (swmFld n F.SWM_TBL_ERR) = e % 2 ^ F.SWM_TBL_ERR.width ∧
        t.fld (swmFld n F.SWM_TBL_ERR_SLOT) = i % 2 ^ F.SWM_TBL_ERR_SLOT.width ∧
        t.flag (swmFld n F.SWM_TBL_REFRESH) = false ∧
        { t.untold s with arms := s.arms, ecc := s.ecc } = s) ∧
    ((s.arm n).refresh = false ∨ (s.arm n).refreshSweeps < 1000 →
      exec (.tblStarved n) s = .next s) ∧
    ((s.arm n).refresh = true → 1000 ≤ (s.arm n).refreshSweeps →
      ∃ t, exec (.tblStarved n) s = .next t ∧ t.flag (swmFld n F.SWM_TBL_STARVED) = true ∧
        onlyRegs [(swmFld n F.SWM_TBL_STARVED).addr] s t) ∧
    (s.cfActive id = false → exec (.clr n slot) s = .next s) ∧
    (s.cfPerm id = true → s.quiet = false → exec (.clr n slot) s = .next s) ∧
    (s.cfActive id = true → s.cfPerm id = false ∨ s.quiet = true →
      ∃ t, exec (.clr n slot) s = .next t ∧ t.flag (cfFld id F.SWM_CF_CLR) = true ∧
        t.cfActive id = true ∧ onlyRegs [(cfFld id F.SWM_CF_CLR).addr] s t)

/-- R104, R105, R220: a pass takes the present cells of the enabled arms and the lanes whose identity
record is complete. A cell is asked by an echo, one a lane, against a credit; a reply that matches by
LSLOT and TAG of a request that has left the contacts gives a sample, any other is discarded; the
sixteenth sample completes the set, or, with a spread above 4 ns, discards it; a request with no reply in
2 periods and 10 µs of leaving is abandoned, the oldest first, and its sample asked for again. The reply
is the last whole unit of the line bits received; the units before it act first, and the reflex word of a
unit cut off behind it acts last. R105, R106, R196: a pass whose cells are all finished writes the new
DELAY of every cell that has one (here in Blocked or Servicing, where none is withheld), and counts; with
BG_EN the next pass starts. START clears. The bank of the tables is in use (R23) where their contents are
stated. A pass starved of 10 s is told once. A relocked lane whose cells are finished becomes USABLE,
unless a DELAY has moved further than the tolerance: then nothing is written and the lane stays barred. -/
def Obligations.DelayCalibration : Prop :=
  (∀ (n : Arm) (l : DLane) (s : State),
      let x := s.lane n l
      (s.dcal.running = true → exec .dcalStart s = .next s) ∧
      (s.dcal.running = false → ∃ t, exec .dcalStart s = .next t ∧ t.dcal.running = true ∧
        t.dcal.startedAt = s.now ∧ t.flag F.SWM_CAL_START = true ∧
        (∀ id, id ∈ t.dcal.present ↔ ∃ m k i, m < 6 ∧ k < 8 ∧ i < 128 ∧
          s.flagBit F.CRK_ARMS_ARM_EN m = true ∧ s.present m (128 * k + i) = true ∧
          id = cellId m (128 * k + i)) ∧
        (∀ key, key ∈ t.dcal.lanes ↔ ∃ m k, m < 6 ∧ k < 8 ∧ s.flagBit F.CRK_ARMS_ARM_EN m = true ∧
          s.flag (laneFld m k F.DFY_CREDIT_ID_OK) = true ∧ key = laneKey m k) ∧
        { t with dcal := s.dcal, regs := s.regs } = s ∧ regsKept [F.SWM_CAL_START.addr] s t) ∧
      (s.laneLocked n l = false ∨ s.avail n l = 0 ∨ x.echoSweep = some s.sweep ∨
        s.flag (laneFld n l F.DFY_CREDIT_ID_OK) = false ∨ s.calNext n l = none → exec (.echoReq n l) s = .next s) ∧
      (∀ id, s.laneLocked n l = true → s.flag (laneFld n l F.DFY_CREDIT_ID_OK) = true → 0 < s.avail n l →
        x.echoSweep ≠ some s.sweep → s.calNext n l = some id →
        ∃ t, exec (.echoReq n l) s = .next t ∧
          t.lane n l = { x with
            echoes := x.echoes ++ [(id % 128, x.echoTag, s.now)], echoTag := (x.echoTag + 1) % 256
            echoSweep := some s.sweep, units := x.units ++ [(0x01, echoPayload (id % 128) x.echoTag)] } ∧
          t.avail n l = s.avail n l - 1 ∧
          t.outst n l = (s.outst n l + 1) % 2 ^ F.DFY_CREDIT_OUTST.width ∧
          onlyLane n l [(laneFld n l F.DFY_CREDIT_AVAIL).addr, (laneFld n l F.DFY_CREDIT_OUTST).addr] s t) ∧
      (∀ (line : List Bool) (rtt : Nat),
        let us := wholeUnits (s.lineUnits n l line)
        let cuts := (s.lineUnits n l line).filter (fun u => u.cut)
        let v := forL us.dropLast (unitRx n l none) (s.lineTake n l line)
        (s.streams n l = false ∨ us = [] → exec (.echoRep n l line rtt) s = .next s) ∧
        (∀ u, us.getLast? = some u → u.ok = false ∨ u.utype ≠ 0x02 → exec (.echoRep n l line rtt) s = .next s) ∧
        (∀ u, s.streams n l = true → us.getLast? = some u → u.ok = true → u.utype = 0x02 →
          let p := u.payload
          exec (.echoRep n l line rtt) s = .next ((forL cuts (cutRx n l) (echoRep n l (p.extractLsb' 57 7).toNat
            (p.extractLsb' 49 8).toNat (p.extractLsb' 25 24).toNat rtt (v.carrierRx n l u.rfx))).lineDone n l))) ∧
      (∀ (ls : Fin 128) (tag : Byte) (turn : BitVec 24) (rtt : Nat),
        let t := echoRep n l ls tag.toNat turn.toNat rtt s
        let hit := fun e : Nat × Nat × Nat => decide (e.1 = ls.val ∧ e.2.1 = tag.toNat) && !(x.waits e)
        let id := cellId n (128 * l + ls)
        let k := calKey (s.requalRuns n l) id
        let c := s.cal k
        let all := c.samples ++ [s.echoSample n l turn.toNat rtt]
        ((s.laneLocked n l = false ∨ x.echoes.any hit = false ∨
            2000 * s.period + 10000000 < 125 * rtt) →
          t = s) ∧
        (x.echoes.any hit = true → s.laneLocked n l = true → 125 * rtt ≤ 2000 * s.period + 10000000 →
            t.lane n l = { x with echoes := x.echoes.filter (fun e => !(hit e)) } ∧
            otherLanes n l s t ∧ (∀ j, j ≠ k → t.cal j = s.cal j) ∧
            ((id ∉ s.calCells n l ∨ c.finished = true) → t.cal k = c ∧ t.mem = s.mem ∧ t.regs = s.regs) ∧
            (id ∈ s.calCells n l → c.finished = false → all.length < 16 →
              t.cal k = { c with samples := all } ∧ t.mem = s.mem ∧ t.regs = s.regs) ∧
            (id ∈ s.calCells n l → c.finished = false → 16 ≤ all.length → setSpread all ≤ 64 →
              t.cal k = { c with samples := [], finished := true, result := some (setMean all) } ∧
              (s.bankOpen (workRec id) = true → t.rd32 (workRec id) = BitVec.ofInt 32 (setMean all)) ∧ memKept (workRec id) 16 s t) ∧
            (id ∈ s.calCells n l → c.finished = false → 16 ≤ all.length → 64 < setSpread all →
              (t.cal k).samples = [] ∧ (t.cal k).discarded = c.discarded + 1 ∧
              (t.cal k).failed = decide (2 ≤ c.discarded) ∧ (t.cal k).result = c.result ∧
              memKept (workRec id) 16 s t))) ∧
      (x.echoes.find? (fun e => !(x.waits e)) = none → exec (.echoTimeout n l) s = .next s) ∧
      (∀ ls tag at_, x.echoes.find? (fun e => !(x.waits e)) = some (ls, tag, at_) →
        let id := cellId n (128 * l + ls)
        let k := calKey (s.requalRuns n l) id
        ∃ t, exec (.echoTimeout n l) s = .next t ∧ t.lane n l = { x with echoes := x.echoes.erase (ls, tag, at_) } ∧
          t.now = max s.now (at_ + 2 * s.period * 1000 + 10000000) ∧ otherLanes n l s t ∧
          ((id ∉ s.calCells n l ∨ (s.cal k).finished = true) → t.cal k = s.cal k ∧ t.mem = s.mem) ∧
          (id ∈ s.calCells n l → (s.cal k).finished = false → (s.cal k).abandoned < 15 →
            t.cal k = { s.cal k with abandoned := (s.cal k).abandoned + 1 } ∧ t.mem = s.mem) ∧
          (id ∈ s.calCells n l → (s.cal k).finished = false → 15 ≤ (s.cal k).abandoned →
            (t.cal k).samples = [] ∧ (t.cal k).discarded = (s.cal k).discarded + 1))) ∧
  (∀ (n : Arm) (l : DLane) (s : State),
      let c := fun id => s.cal (calKey true id)
      (s.passOver = false → exec .dcalPassEnd s = .next s) ∧
      (s.passOver = true → ∃ t, exec .dcalPassEnd s = .next t ∧
        t.dcal.running = s.flag F.SWM_CAL_BG_EN ∧ t.flag F.SWM_CAL_START = false ∧
        t.flag F.SWM_CAL_DONE = true ∧
        t.fld F.SWM_CAL_STAT_PASSES =
          min (2 ^ F.SWM_CAL_STAT_PASSES.width - 1) (s.fld F.SWM_CAL_STAT_PASSES + 1) ∧
        (∀ a, (∀ id, id ∈ s.dcal.present → ¬(delayAddr id ≤ a ∧ a < delayAddr id + 4)) →
          t.rd8 a = s.rd8 a) ∧
        (s.quiet = true → s.bankOpen (delayAddr 0) = true → ∀ id r, id ∈ s.dcal.present → id < 6144 →
          laneKey (id / 1024) (id % 1024 / 128) ∈ s.dcal.lanes → (s.cal id).failed = false →
          (s.cal id).result = some r → t.rd32 (delayAddr id) = BitVec.ofInt 32 r)) ∧
      (s.dcal.running = false ∨ s.dcal.told = true → exec .dcalStarved s = .next s) ∧
      (s.dcal.running = true → s.dcal.told = false → ∃ t, exec .dcalStarved s = .next t ∧
        t.dcal = { s.dcal with told := true } ∧ t.now = max s.now (s.dcal.startedAt + 10 ^ 13) ∧
        t.flag F.SWM_CAL_STAT_STARVED = true ∧ t.flag (lineStat 0x0C) = true ∧
        { t.untold s with dcal := s.dcal, now := s.now } = s ∧
        regsTold [F.SWM_CAL_STAT_STARVED.addr] s t) ∧
      (s.requalOver n l = false → exec (.requalDone n l) s = .next s) ∧
      (s.requalOver n l = true → ∃ t, exec (.requalDone n l) s = .next t ∧
        t.requalRuns n l = false ∧ (t.lane n l).requal = false ∧
        ((∀ id r, id ∈ s.laneCells n l → (c id).result = some r → s.jumps id r = false) →
          t.laneUsable n l = !(s.lane n l).barred ∧
          (s.bankOpen (delayAddr 0) = true → ∀ id r, id ∈ s.laneCells n l → (c id).result = some r →
            t.rd32 (delayAddr id) = BitVec.ofInt 32 r)) ∧
        (∀ id r, id ∈ s.laneCells n l → (c id).result = some r → s.jumps id r = true →
          t.flag (laneFld n l F.DFY_LSTAT_REQUAL_FAIL) = true ∧ (t.lane n l).barred = true ∧
          t.laneUsable n l = s.laneUsable n l ∧ t.flag (lineStat 0x0D) = true ∧
          ∀ a, t.rd8 a = s.rd8 a)))

/-! ### Reflex words, frames, units and bring-up of the lanes (chapters 7 and 8) -/

/-- R115 to R117, R216, R217, R219, R225: what is not on a lane in FRAME or LOCKED is not received. A
request's word acts at its last bit, before the rest of its carrier: below N_SLOTS on the ACTIVE module it
makes the cell's fault record and queues its answer; one beyond counts in RFX_BAD on any module; a failed
RCRC and a reserved KIND are counted. A gap unit that fails its check counts in SLOT_ERR and is discarded, a
reserved UTYPE in RFX_BAD, and IDLE and SHORT do nothing; of a unit cut off only the reflex word acts. The next
carrier takes the oldest answer; an echo request counts from the last bit of its unit (R104, R220), and counts a
deferral for a frame's carrier that goes before it (R16). -/
def Obligations.ReflexWords : Prop :=
  ∀ (n : Arm) (l : DLane) (s : State),
    let x := s.lane n l
    let heard := fun (w : Word) (req : Bool) => { x with
      early := x.early ++ [w], scanDefer := x.scanDefer + (if req && x.scan.isSome then 1 else 0) }
    let counted := fun (f : Fld) (t : State) => t.fld f = min (2 ^ f.width - 1) (s.fld f + 1)
    let bad := laneFld n l F.DFY_RFXERR_RFX_BAD
    let crc := laneFld n l F.DFY_RFXERR_RCRC_ERR
    let chk := laneFld n l F.DFY_FERR2_SLOT_ERR
    (∀ (ls : Fin 128) (fault rid : Fin 16),
      ∀ p ∈ [(Instr.bypassReq n l ls fault rid, Request.bypass), (.pbypReq n l ls fault rid, .pbyp),
        (.selfBlocked n l ls fault rid, .selfBlocked)],
        let k := s.answerKind n p.2
        let id := cellId n (128 * l + ls)
        let y := heard (rfxFinish (rfxWord (requestKind p.2) fault ls rid) false) true
        (s.streams n l = false → exec p.1 s = .next s) ∧
        (s.streams n l = true → s.nSlots n ≤ 128 * l.val + ls.val →
          ∃ t, exec p.1 s = .next t ∧ counted bad t ∧ t.lane n l = y ∧ onlyLane n l [bad.addr] s t) ∧
        (s.streams n l = true → 128 * l.val + ls.val < s.nSlots n → s.active = false →
          ∃ t, exec p.1 s = .next t ∧ t.lane n l = y ∧ onlyLane n l [] s t) ∧
        (s.streams n l = true → s.active = true → 128 * l.val + ls.val < s.nSlots n →
          ∃ t, exec p.1 s = .next t ∧
            t.lane n l = { y with answers := x.answers ++ [rfxWord k 0 ls rid] } ∧
            otherLanes n l s t ∧
            (t.arm n).grants = (s.arm n).grants + (if k = kindGrantByp then 1 else 0) ∧
            t.cfActive id = true ∧ t.fld (cfFld id F.SWM_CF_CODE) = fault.val ∧
            t.fld (cfFld id F.SWM_CF_HELD) =
              (if s.cfPerm id then codePermanent else s.answerHeld k fault) ∧
            t.flag (cfFld id F.SWM_CF_SRC) = false ∧ t.flag (lineStat 0x0A) = true ∧
            (∀ a, t.rd8 a = s.rd8 a))) ∧
    (∀ w : Word,
      let kind := w.toNat / 2 ^ 28
      let fails := rfxCrc w ≠ BitVec.ofNat 8 w.toNat
      (s.streams n l = false ∨ (¬fails ∧ kind ≤ 3) → exec (.rcrcErr n l w) s = .next s) ∧
      (s.streams n l = true → fails → ∃ t, exec (.rcrcErr n l w) s = .next t ∧ counted crc t ∧
        t.lane n l = heard w (decide (1 ≤ kind ∧ kind ≤ 3)) ∧ onlyLane n l [crc.addr] s t) ∧
      (s.streams n l = true → ¬fails → 3 < kind → ∃ t, exec (.rcrcErr n l w) s = .next t ∧
        counted bad t ∧ t.lane n l = heard w false ∧ onlyLane n l [bad.addr] s t)) ∧
    (∀ line : List Bool,
      (s.streams n l = false → exec (.gapUnit n l line) s = .next s) ∧
      (s.streams n l = true → exec (.gapUnit n l line) s =
        .next ((forL ((s.lineUnits n l line).filter (fun u => u.cut)) (cutRx n l)
          (forL (wholeUnits (s.lineUnits n l line)) (unitRx n l none) (s.lineTake n l line))).lineDone n l))) ∧
    (∀ u : RxUnit, cutRx n l u s =
      if rfxCrc u.rfx = BitVec.ofNat 8 u.rfx.toNat then s.carrierRx n l u.rfx else s) ∧
    (∀ u : RxUnit, rfxCrc u.rfx = BitVec.ofNat 8 u.rfx.toNat → u.rfx.toNat < 2 ^ 28 →
      x.early.contains u.rfx = false →
      let t := unitRx n l none u s
      (u.ok = false → counted chk t ∧ onlyRegs [chk.addr] s t) ∧
      (u.ok = true → u.utype = 0 ∨ u.utype = 0x0F → t = s) ∧
      (u.ok = true → u.utype ∉ [0, 0x0F, 0x02, 0x03, 0x05] → counted bad t ∧ onlyRegs [bad.addr] s t)) ∧
    (s.carries n l = false ∨ s.nextCarrier x = none → exec (.rfxFill n l) s = .next s) ∧
    (∀ k, s.carries n l = true → s.nextCarrier x = some k →
      let c := { x with answers := x.answers.tail }.carrier
        (rfxFinish (x.answers.headD 0) (s.flag F.MTS_STAT_BLOCK_ALL)) k
      let fill := if k = .header then x.fillRoom else 0
      ∃ t, exec (.rfxFill n l) s = .next t ∧ (t.lane n l).answers = x.answers.tail ∧
        t.now = max s.now (x.rfxAt k) ∧
        (s.streams n l = true → (t.lane n l).frame = x.frame ∧
          (t.lane n l).tx = x.tx.carry (s.impMode n l == impDead) fill c.1) ∧
        (∀ u, k = .unit → x.units.head? = some u → (t.lane n l).echoes = x.echoes.map (fun e =>
          if u = (0x01, echoPayload e.1 e.2.1) then (e.1, e.2.1, (t.lane n l).txAt) else e)) ∧
        (k ≠ .unit ∨ x.units = [] → (t.lane n l).echoes = x.echoes) ∧
        (t.lane n l).echoDefer = x.echoDefer +
          (if k ≠ .unit ∧ k ≠ .short ∧ x.units.any (fun u => u.1 == 0x01) = true then 1 else 0) ∧
        otherLanes n l s t ∧ { t with dfy := s.dfy, now := s.now } = s)

/-- R182, R191, R206, R214, R222, R225: line bits up to the end of an upstream frame, on a lane in FRAME or
LOCKED, go through the destuffer and the descrambler; stuffing violations count, and the tracker of a LOCKED
lane moves. A frame without the upstream sync word is missed, but in LOCKED its reflex words act; one whose header fails HCRC is counted; any
other returns its credits and is kept for the admission point with its SEQ and EPOCH, each
slot that passes SCRC as received, and the others counted; impairment RX_DROP keeps nothing of a frame. Here no gap unit comes with the frame, and it
asks for no reflex action. -/
def Obligations.UpstreamFrames : Prop :=
  ∀ (n : Arm) (l : DLane) (half : Bool) (line : List Bool) (track : Fin 3) (s : State),
    let x := s.lane n l
    let c := Instr.upstreamFrame n l half line track
    let b := s.lineBits n l line
    let skip := s.lineSkip n l
    let viol := laneFld n l F.DFY_LERR_STUFF_VIOL
    let hcrcErr := laneFld n l F.DFY_FERR_HCRC_ERR
    let scrcErr := laneFld n l F.DFY_FERR_SCRC_ERR
    let moved := s.laneLocked n l && track.val != 1 && decide (x.trackAt + 1024000 ≤ s.now)
    (s.streams n l = false → exec c s = .next s) ∧
    (s.streams n l = true → ∃ t, exec c s = .next t ∧
      (t.lane n l).rx = (x.rx.take s.now line).2 ∧ otherLanes n l s t ∧
      t.fld viol = min (2 ^ viol.width - 1) (s.fld viol + x.rx.violations line) ∧
      t.fldS (laneFld n l F.DFY_LPH_TRACK) = (if moved then
        max (-16) (min 16 (s.fldS (laneFld n l F.DFY_LPH_TRACK) + track.val - 1))
        else s.fldS (laneFld n l F.DFY_LPH_TRACK)) ∧
      (s.syncAt n l half skip b = none → (t.lane n l).frames = x.frames ∧ (t.lane n l).goodFrames = 0 ∧
        (t.lane n l).bad = (if s.missCounts n l then x.bad + 1 else x.bad)) ∧
      (s.syncAt n l half skip b = none → s.laneLocked n l = true → frameBits half ≤ b.length → skip = 0 →
        gapUnits (s.lineLeft n l line) 0 0 (b.take (b.length - frameBits half)) = [] →
        let f := b.drop (b.length - frameBits half)
        let u := ((s.lineTake n l line).trackMove n l track).frameMissed n l
        t = (forL (frameWords (frameHead f) (frameBody half f)) (fun w v => v.carrierRx n l w) u).lineDone n l) ∧
      (∀ p, s.syncAt n l half skip b = some p → s.impMode n l = impNone → x.early = [] →
        gapUnits (s.lineLeft n l line) 0 skip (b.take p) = [] →
        gapUnits (s.lineLeft n l line) (p + frameBits half) 0 (b.drop (p + frameBits half)) = [] →
        let f := b.drop p
        let hdr := frameHead f
        let slots := frameBody half f
        let ret := min (fieldOf hdr 62 4) (s.outst n l)
        (∀ w, w ∈ frameWords hdr slots → rfxCrc w = BitVec.ofNat 8 w.toNat ∧ w.toNat < 2 ^ 28) →
        (hdrCrc hdr ≠ frameCrc f → (t.lane n l).frames = x.frames ∧ (t.lane n l).goodFrames = 0 ∧
          (t.lane n l).bad = (if s.missCounts n l then x.bad + 1 else x.bad) ∧
          t.fld hcrcErr = min (2 ^ hcrcErr.width - 1) (s.fld hcrcErr + 1)) ∧
        (hdrCrc hdr = frameCrc f → (t.lane n l).bad = 0 ∧ (t.lane n l).goodFrames = x.goodFrames + 1 ∧
          t.outst n l = s.outst n l - ret ∧
          t.avail n l = (s.avail n l + ret) % 2 ^ F.DFY_CREDIT_AVAIL.width ∧
          (t.lane n l).frames =
            { at_ := s.now, seq := fieldOf hdr 80 16, epoch := fieldOf hdr 72 8
              slots := slots.map keptSlot } :: x.frames ∧
          t.fld scrcErr = min (2 ^ scrcErr.width - 1)
            (s.fld scrcErr + (slots.filter (fun y => (keptSlot y).isNone)).length))) ∧
      (s.syncAt n l half skip b ≠ none → s.impMode n l = impRxDrop → (t.lane n l).frames = x.frames ∧
        (t.lane n l).bad = x.bad ∧ (t.lane n l).goodFrames = x.goodFrames ∧ t.fld hcrcErr = s.fld hcrcErr))

/-- R200, R219, R221, R222: an eye report, the last whole unit of the line bits received, is kept; a chunk
of the identity record is asked for against a credit, the lowest first, and again when it has not come in
256 µs; the first copy of a chunk is kept, and the eighth completes the record: it gives the node's ID and
an ASYM that fits 16 bits (another keeps the old one, the model's choice), and a valid one the buffers it
declares and ID_OK. R197 to R199: START on a LOCKED data lane starts a scan with both counts at 0, and on
any other is ignored with REJ; the sampler's place and the dwell are taken then. A scan that completes
ends with DONE and its counts; one that does not complete in time is told once and goes on. -/
def Obligations.IdentityRecordAndEyeScans : Prop :=
  (∀ (n : Arm) (l : DLane) (line : List Bool) (chunk : Fin 16) (bytes : BitVec 48) (s : State),
      let x := s.lane n l
      let us := wholeUnits (s.lineUnits n l line)
      let done := fun (t : State) =>
        (forL ((s.lineUnits n l line).filter (fun u => u.cut)) (cutRx n l) t).lineDone n l
      let v := forL us.dropLast (unitRx n l none) (s.lineTake n l line)
      let rec_ := idRec n l chunk bytes s
      let ask := fun (t : State) (c now : Nat) =>
        (t.lane n l).asked = tset (fun _ => none) c (some now) x.asked ∧
        (t.lane n l).units = x.units ++ [(0x04, idReqPayload c)] ∧ t.avail n l = s.avail n l - 1 ∧
        t.outst n l = (s.outst n l + 1) % 2 ^ F.DFY_CREDIT_OUTST.width ∧ otherLanes n l s t ∧
        regsKept [(laneFld n l F.DFY_CREDIT_AVAIL).addr, (laneFld n l F.DFY_CREDIT_OUTST).addr] s t
      (s.streams n l = false ∨ us = [] →
        exec (.eyeRep n l line) s = .next s ∧ exec (.idRec n l line) s = .next s) ∧
      (∀ u, s.streams n l = true → us.getLast? = some u →
        let r := v.carrierRx n l u.rfx
        (u.ok = false ∨ u.utype ≠ 0x03 → exec (.eyeRep n l line) s = .next s) ∧
        (u.ok = true → u.utype = 0x03 → ∃ t, exec (.eyeRep n l line) s = .next (done t) ∧
          (r.streams n l = true → t.lane n l =
            { r.lane n l with eye := ((u.payload.extractLsb' 56 8).toNat, (u.payload.extractLsb' 48 8).toNat) } ∧
            onlyLane n l [] r t)) ∧
        (u.ok = false ∨ u.utype ≠ 0x05 → exec (.idRec n l line) s = .next s) ∧
        (u.ok = true → u.utype = 0x05 → exec (.idRec n l line) s =
          .next (done (idRec n l (u.payload.extractLsb' 60 4).toNat (u.payload.extractLsb' 8 48) r)))) ∧
      (s.laneLocked n l = false ∨ s.avail n l = 0 →
        exec (.idReq n l) s = .next s ∧ exec (.idReqRetry n l) s = .next s) ∧
      (s.laneLocked n l = true → 0 < s.avail n l →
        ((∀ c, c < 8 → x.askedAt c ≠ none ∨ x.hasChunk c = true) → exec (.idReq n l) s = .next s) ∧
        (∀ c, c < 8 → x.askedAt c = none → x.hasChunk c = false →
          (∀ d, d < c → x.askedAt d ≠ none ∨ x.hasChunk d = true) →
          ∃ t, exec (.idReq n l) s = .next t ∧ t.now = s.now ∧ ask t c s.now) ∧
        ((∀ c, c < 8 → x.askedAt c = none ∨ x.hasChunk c = true) →
          exec (.idReqRetry n l) s = .next s) ∧
        (∀ c at_, c < 8 → x.askedAt c = some at_ → x.hasChunk c = false →
          (∀ d at', d < 8 → d ≠ c → x.askedAt d = some at' → x.hasChunk d = false → at_ < at') →
          ∃ t, exec (.idReqRetry n l) s = .next t ∧ t.now = max s.now (at_ + 256000000) ∧
            ask t c t.now)) ∧
      (s.laneLocked n l = false ∨ 8 ≤ chunk.val ∨ x.hasChunk chunk = true → rec_ = s) ∧
      (s.laneLocked n l = true → chunk.val < 8 → x.hasChunk chunk = false →
        let t := rec_
        (t.lane n l).hasChunk chunk = true ∧
          (∀ d, d ≠ chunk.val → (t.lane n l).hasChunk d = x.hasChunk d) ∧ otherLanes n l s t ∧
          ((∃ d, d < 8 ∧ d ≠ chunk.val ∧ x.hasChunk d = false) → t.regs = s.regs) ∧
          ((∀ d, d < 8 → d ≠ chunk.val → x.hasChunk d = true) → recValid (t.lane n l).record = true →
            t.flag (laneFld n l F.DFY_CREDIT_ID_OK) = true ∧
            t.fld (laneFld n l F.DFY_CREDIT_MGMT_BUF) = recBuf (t.lane n l).record) ∧
          ((∀ d, d < 8 → d ≠ chunk.val → x.hasChunk d = true) →
            let asym := recAsym (t.lane n l).record
            t.fld (laneFld n l F.DFY_NODE_NODE_ID) = leNat ((t.lane n l).record.take 2) ∧
            t.fldS (laneFld n l F.DFY_NODE_ASYM) =
              (if -32768 ≤ asym ∧ asym ≤ 32767 then asym else s.fldS (laneFld n l F.DFY_NODE_ASYM)) ∧
            (recValid (t.lane n l).record = false →
              t.flag (laneFld n l F.DFY_CREDIT_ID_OK) = s.flag (laneFld n l F.DFY_CREDIT_ID_OK))))) ∧
  (∀ (p : Port) (l : DLane) (errors : Nat) (s : State),
      let x := s.lane p l
      let f := fun (g : Fld) => laneFld p l g
      (hasLane p l = false → exec (.eyeScanStart p l) s = .next s) ∧
      (hasLane p l = true → s.laneLocked p l = false → ∃ t, exec (.eyeScanStart p l) s = .next t ∧
        t.flag (f F.DFY_ESCTL_REJ) = true ∧ onlyRegs [(f F.DFY_ESCTL_REJ).addr] s t) ∧
      (hasLane p l = true → s.laneLocked p l = true → ∃ t, exec (.eyeScanStart p l) s = .next t ∧
        t.lane p l = { x with
          scan := some s.now, scanTold := false, scanDefer := 0, scanDwell := s.dwell p l
          scanPh := max (-32) (min 31 (s.fldS (f F.DFY_ESCTL_PH_OFF)))
          scanV := max (-31) (s.fldS (f F.DFY_ESCTL_V_OFF)) } ∧
        t.flag (f F.DFY_ESCTL_START) = true ∧ t.fld (f F.DFY_ESERR_ERRORS) = 0 ∧
        t.fld (f F.DFY_ESBITS_BITS) = 0 ∧
        onlyLane p l [(f F.DFY_ESCTL_START).addr, (f F.DFY_ESERR_ERRORS).addr, (f F.DFY_ESBITS_BITS).addr] s t) ∧
      (x.scan = none → exec (.eyeScanDone p l errors) s = .next s ∧ exec (.eyeStarved p l) s = .next s) ∧
      (∀ at_, x.scan = some at_ →
        (∃ t, exec (.eyeScanDone p l errors) s = .next t ∧ (t.lane p l).scan = none ∧
          t.now = max s.now (at_ + 80 * 2 ^ x.scanDwell) ∧ t.flag (f F.DFY_ESCTL_START) = false ∧
          t.flag (f F.DFY_ESCTL_DONE) = true ∧
          t.fld (f F.DFY_ESERR_ERRORS) = min (2 ^ 32 - 1) (min errors (2 ^ x.scanDwell)) ∧
          t.fld (f F.DFY_ESBITS_BITS) = min (2 ^ 32 - 1) (2 ^ x.scanDwell / 512)) ∧
        (x.scanTold = true → exec (.eyeStarved p l) s = .next s) ∧
        (x.scanTold = false → ∃ t, exec (.eyeStarved p l) s = .next t ∧
          t.lane p l = { x with scanTold := true } ∧ t.flag (f F.DFY_ESCTL_STARVED) = true ∧
          t.flag (lineStat 0x16) = true)))

/-- R184, R185, R189, R201: BRINGUP takes every lane of a port to CLOCK as attempt 1 with its settings
from the table in force, DOWN takes them to OFF; both, of an arm port, only in Blocked or Servicing, and
a write outside is rejected, as is IMP_GO where no injection may act. LOAD of an equalisation table
that passes its checks puts every entry in force; one that fails reports the code and keeps the table. -/
def Obligations.PortCommands : Prop :=
  ∀ (src : Src) (p : Port) (s : State),
    let rejected := fun (c : Instr) => ∃ t, exec c s = .next t ∧ t.flag (lineStat 0x00) = true ∧
      t.untold s = s ∧ regsTold [] s t
    let elsewhere := fun (t : State) => ∀ (q : Port) l, q ≠ p → l < 9 →
      t.lane q l = s.lane q l ∧ t.phase q l = s.phase q l
    (s.mayTrain p = false → rejected (.bringup src p) ∧ rejected (.down src p)) ∧
    (s.mayTrain p = true →
      (∃ t, exec (.bringup src p) s = .next t ∧ elsewhere t ∧ (∀ a, t.rd8 a = s.rd8 a) ∧
        ∀ l, l ∈ allLanes p → t.phase p l = phClock ∧
          t.fld (laneFld p l F.DFY_LSTAT_ATTEMPT) = 1 ∧ (t.lane p l).phaseAt = s.now ∧
          (t.lane p l).eq = tget (fun _ => {}) s.dfy.eq (eqIndex p l) ∧
          (l ≠ ckLane → t.laneUsable p l = false ∧ (t.lane p l).barred = false ∧
            (t.lane p l).relocked = false ∧ (t.lane p l).answers = [] ∧ (t.lane p l).frames = [])) ∧
      (∃ t, exec (.down src p) s = .next t ∧ elsewhere t ∧ (∀ a, t.rd8 a = s.rd8 a) ∧
        ∀ l, l ∈ allLanes p → t.phase p l = phOff ∧ t.fld (laneFld p l F.DFY_LSTAT_ATTEMPT) = 0 ∧
          (l ≠ ckLane → t.laneUsable p l = false ∧ (t.lane p l).answers = []))) ∧
    (s.impAllowed p = false → rejected (.impGo src p)) ∧
    (s.impAllowed p = true → ∃ t, exec (.impGo src p) s = .next t ∧
      t.imp p = { s.imp p with
        armed := some (s.reg (R.DFY_IMP + 0x2000 * p), s.reg (R.DFY_IMP_AT + 0x2000 * p)) } ∧
      (∀ q : Port, q ≠ p → t.imp q = s.imp q) ∧ { t with dfy := s.dfy } = s ∧
      { t.dfy with ports := s.dfy.ports } = s.dfy) ∧
    (let a := s.fld F.DFY_EQ_ADDR_ADDR
      ∃ t, exec .eqLoad s = .next t ∧ t.fld F.DFY_EQ_CTL_ERR = (s.eqCheck a).1 ∧
        t.fld F.DFY_EQ_CTL_ERR_ENTRY = (s.eqCheck a).2 ∧ (∀ b, t.rd8 b = s.rd8 b) ∧
        ((s.eqCheck a).1 ≠ 0 → t.dfy = s.dfy) ∧
        ((s.eqCheck a).1 = 0 → t.flag F.DFY_EQ_CTL_DONE = true ∧ t.flag F.DFY_EQ_CTL_DEFAULT = false ∧
          t.fld F.DFY_EQ_STAT_VER = s.rd16 a ∧ t.fld F.DFY_EQ_STAT_BOARD_ID = s.rd16 (a + 2) ∧
          { t.dfy with eq := s.dfy.eq } = s.dfy ∧
          ∀ i, i < 59 → tget (fun _ => {}) t.dfy.eq i = eqOf (s.rdBytes (a + 16 + 8 * i) 8)))

/-- R186 to R188, R192 to R196, R222, R238, R435: the phases of bring-up in their order, each left by its own
event and by no other (CLOCK only while the outputs are not gated); a lane in ALIGN sends TP_A, one in
HANDSHAKE TP_B, and while the outputs are gated none sends. A phase that times out repeats from PHASE with the next attempt, or fails the
lane with BU_FAIL and a report; a LOCKED lane that loses lock with the line bits received, and a port whose CK does, start over
with RELOCK_EN and fail without it. -/
def Obligations.LaneBringUp : Prop :=
  ∀ (p : Port) (l : DLane) (pass : BitVec 64) (slips : Fin 8) (cause : LolCause) (line : List Bool) (s : State),
    let n := s.fld (laneFld p l F.DFY_LSTAT_ATTEMPT)
    let ck := s.phase p ckLane = phClock
    let elsewhere := fun (t : State) => ∀ (q : Port) k, q ≠ p → k < 9 →
      t.lane q k = s.lane q k ∧ t.phase q k = s.phase q k
    let moves := fun (t : State) (ph : Nat) => t.phase p l = ph ∧ otherLanes p l s t ∧
      (∀ (q : Port) k, k < 9 → (q.val, k) ≠ (p.val, l.val) → t.phase q k = s.phase q k) ∧
      ∀ a, t.rd8 a = s.rd8 a
    let held := (s.lane p l).sending
    let gated := s.flag F.FFY_STAT_GATED = true
    let lost := (s.lineTake p l line).lolHolds p l cause
    (¬ck ∨ s.flag F.FFY_STAT_GATED = true → exec (.clockDone p) s = .next s) ∧
    (¬ck → exec (.clockTimeout p) s = .next s) ∧
    (ck → s.flag F.FFY_STAT_GATED = false → ∃ t, exec (.clockDone p) s = .next t ∧ elsewhere t ∧
      t.now = max s.now (max (s.lane p ckLane).phaseAt s.ffy.releasedAt + 10 * 10 ^ 6) ∧ t.laneLocked p ckLane = true ∧
      ∀ k, k ∈ dataLanes p → t.phase p k = phPhase) ∧
    (ck → ∃ t, exec (.clockTimeout p) s = .next t ∧ elsewhere t ∧
      t.now = max s.now ((s.lane p ckLane).phaseAt + 1000 * 10 ^ 6) ∧
      (s.fld (laneFld p ckLane F.DFY_LSTAT_ATTEMPT) < s.attempts → ∀ k, k ∈ allLanes p →
        t.phase p k = phClock ∧ t.fld (laneFld p k F.DFY_LSTAT_ATTEMPT) =
          s.fld (laneFld p ckLane F.DFY_LSTAT_ATTEMPT) + 1) ∧
      (s.attempts ≤ s.fld (laneFld p ckLane F.DFY_LSTAT_ATTEMPT) →
        (∀ k, k ∈ allLanes p → t.phase p k = phFailed) ∧
        t.flag (portFld p F.DFY_PSTAT_BU_FAIL) = true ∧ t.flag (lineStat 0x15) = true)) ∧
    (s.phase p l ≠ phPhase ∨ hasLane p l = false ∨ (bestRun pass).2 < s.eyeMin →
      exec (.phaseDone p l pass) s = .next s) ∧
    (s.phase p l = phPhase → hasLane p l = true → s.eyeMin ≤ (bestRun pass).2 →
      ∃ t, exec (.phaseDone p l pass) s = .next t ∧ moves t phAlign ∧
        t.fld (laneFld p l F.DFY_LPH_CENTRE) = ((bestRun pass).1 + ((bestRun pass).2 - 1) / 2) % 64 ∧
        t.fld (laneFld p l F.DFY_LPH_EYE_W) = min 63 (bestRun pass).2 ∧
        t.fldS (laneFld p l F.DFY_LPH_TRACK) = 0 ∧
        (held = false → (t.lane p l).tx.line =
          if gated then [] else [true, true, true, true, false, false, false, false])) ∧
    (s.phase p l = phAlign → hasLane p l = true → ∃ t, exec (.alignDone p l slips) s = .next t ∧
      moves t phHandshake ∧ t.fld (laneFld p l F.DFY_LSTAT_SLIPS) = slips.val ∧
      (held = false → (t.lane p l).tx.line =
        if gated then [] else [true, true, true, false, true, false, false, false])) ∧
    (s.phase p l = phHandshake → hasLane p l = true → ∃ t, exec (.handshakeDone p l) s = .next t ∧
      moves t phFrame ∧ (t.lane p l).frame = none ∧ (t.lane p l).rx = {} ∧
      (¬gated → (t.lane p l).tx = { (s.lane p l).tx with run := 0 })) ∧
    (s.phase p l = phFrame → hasLane p l = true → 3 ≤ (s.lane p l).goodFrames →
      ∃ t, exec (.frameDone p l) s = .next t ∧ moves t phLocked ∧
        (t.lane p l).requal = ((s.lane p l).relocked && !s.quiet && p.val != portT) ∧
        t.laneUsable p l = (!(t.lane p l).requal && !(s.lane p l).barred) ∧
        (p.val ≠ portT → t.fld (laneFld p l F.DFY_CREDIT_MGMT_BUF) = 1 ∧ t.avail p l = 1 ∧
          t.outst p l = 0 ∧ t.flag (laneFld p l F.DFY_CREDIT_ID_OK) = false)) ∧
    (∀ q ∈ [(Instr.alignDone p l slips, phAlign), (.handshakeDone p l, phHandshake),
        (.frameDone p l, phFrame), (.phaseTimeout p l, phPhase), (.alignTimeout p l, phAlign),
        (.handshakeTimeout p l, phHandshake), (.frameTimeout p l, phFrame)],
      s.phase p l ≠ q.2 ∨ hasLane p l = false → exec q.1 s = .next s) ∧
    (∀ q ∈ [(Instr.phaseTimeout p l, phPhase, 50), (.alignTimeout p l, phAlign, 20),
        (.handshakeTimeout p l, phHandshake, 1000), (.frameTimeout p l, phFrame, 0)],
      s.phase p l = q.2.1 → hasLane p l = true → q.2.1 ≠ phFrame ∨ 32 ≤ (s.lane p l).frameSweeps →
      ∃ t, exec q.1 s = .next t ∧ (q.2.1 ≠ phFrame →
          t.now = max s.now ((s.lane p l).phaseAt + q.2.2 * 10 ^ 6)) ∧ t.laneUsable p l = false ∧ (t.lane p l).answers = [] ∧
        (n < s.attempts → moves t phPhase ∧ t.fld (laneFld p l F.DFY_LSTAT_ATTEMPT) = n + 1) ∧
        (s.attempts ≤ n → moves t phFailed ∧ t.flag (portFld p F.DFY_PSTAT_BU_FAIL) = true ∧
          t.flag (lineStat 0x15) = true)) ∧
    ((s.lane p l).goodFrames < 3 → exec (.frameDone p l) s = .next s) ∧
    ((s.lane p l).frameSweeps < 32 → exec (.frameTimeout p l) s = .next s) ∧
    (s.laneLocked p l = false ∨ hasLane p l = false ∨ lost = false →
      exec (.laneLol p l cause line) s = .next s) ∧
    (s.laneLocked p l = true → hasLane p l = true → lost = true →
      ∃ t, exec (.laneLol p l cause line) s = .next t ∧
        moves t (if s.flag (portFld p F.DFY_PCTL_RELOCK_EN) then phPhase else phFailed) ∧
        t.flag (laneFld p l F.DFY_LSTAT_LOL) = true ∧ t.flag (portFld p F.DFY_PSTAT_LOL) = true ∧
        t.laneUsable p l = false ∧ (t.lane p l).answers = [] ∧ (t.lane p l).relocked = true ∧
        t.flag (lineStat 0x14) = true) ∧
    (s.laneLocked p ckLane = false → exec (.ckLoss p) s = .next s) ∧
    (s.laneLocked p ckLane = true → ∃ t, exec (.ckLoss p) s = .next t ∧ elsewhere t ∧
      t.flag (portFld p F.DFY_PSTAT_LOL) = true ∧ t.flag (lineStat 0x14) = true ∧
      (∀ a, t.rd8 a = s.rd8 a) ∧
      ∀ k, k ∈ allLanes p →
        t.phase p k = (if s.flag (portFld p F.DFY_PCTL_RELOCK_EN) then phClock else phFailed) ∧
        (k ≠ ckLane → t.laneUsable p k = false ∧ (s.laneLocked p k = true → (t.lane p k).relocked = true)))

/-! ### Hornet's registers, Midge and Lacewing (chapters 5 and 6) -/

/-- R124 to R126, R148, R149, R152: EXEC_EN is written at once while no sweep runs and none waits for its
commit, at the next admission point else, and is cleared only in Blocked and Servicing; LOAD and SWAP start
the check of the bank or page not in use, which reports its first error and keeps the one in use, or passes
with code 0 and waits. A poisoned word of a page is reported first, with the lane it belongs to. -/
def Obligations.HornetRegisters : Prop :=
  ∀ (src : Src) (v : Bool) (s : State),
    let rest := fun (t : State) (regs : List Nat) =>
      { t with hrn := s.hrn, regs := s.regs } = s ∧ regsKept regs s t
    let ok := s.bankCheck (1 - bankAct s) = none ∧
      (s.hrn.bankPar = true → s.pageCheck (1 - pageAct s) = none)
    (v = false → s.quiet = false → ∃ t, exec (.execEnWrite src v) s = .next t ∧
      t.untold s = s ∧ regsTold [] s t ∧ t.flag (lineStat 0x00) = true) ∧
    (v = true ∨ s.quiet = true → s.running = false → s.crk.commitDue = none →
      ∃ t, exec (.execEnWrite src v) s = .next t ∧
      t.flag F.HRN_CTL_EXEC_EN = v ∧ t.hrn = { s.hrn with exPend := none } ∧
      rest t [F.HRN_CTL_EXEC_EN.addr]) ∧
    (v = true ∨ s.quiet = true → s.running = true ∨ s.crk.commitDue ≠ none →
      ∃ t, exec (.execEnWrite src v) s = .next t ∧
      t.hrn = { s.hrn with exPend := some v } ∧ { t with hrn := s.hrn } = s) ∧
    (∃ t, exec .publish s = .next t ∧ t.flag F.HRN_CTL_PUBLISH = true ∧
      onlyRegs [F.HRN_CTL_PUBLISH.addr] s t) ∧
    (∃ t, exec .tmaxClr s = .next t ∧ t.fld F.HRN_TIME_MAX_NS = 0 ∧
      t.fld F.HRN_TIME_LAST_NS = s.fld F.HRN_TIME_LAST_NS ∧ onlyRegs [F.HRN_TIME_MAX_NS.addr] s t) ∧
    (s.flag F.HRN_BANK_LOAD = true → exec .hrnBankLoad s = .next s) ∧
    (s.flag F.HRN_BANK_LOAD = false → ∃ t, exec .hrnBankLoad s = .next t ∧
      t.hrn = { s.hrn with bank := .running, bankPar := s.flag F.HRN_BANK_WITH_PAR } ∧
      t.flag F.HRN_BANK_LOAD = true ∧ rest t [F.HRN_BANK_LOAD.addr]) ∧
    (s.hrn.bank ≠ .running → exec .hrnBankCheckDone s = .next s) ∧
    (s.hrn.bank = .running → ∃ t, exec .hrnBankCheckDone s = .next t ∧ bankAct t = bankAct s ∧
      rest t [F.HRN_BANK_LOAD.addr, F.HRN_PAR_ERR.addr] ∧
      (ok → t.hrn = { s.hrn with bank := .passed } ∧ t.fld F.HRN_BANK_ERR = 0 ∧
        t.fld F.HRN_BANK_ERR_INDEX = 0 ∧ (s.hrn.bankPar = true → t.fld F.HRN_PAR_ERR = 0) ∧
        t.flag F.HRN_BANK_LOAD = s.flag F.HRN_BANK_LOAD) ∧
      (¬ok → t.hrn = { s.hrn with bank := .none } ∧ t.flag F.HRN_BANK_LOAD = false) ∧
      (∀ e, s.bankCheck (1 - bankAct s) = some e → t.fld F.HRN_BANK_ERR = e.1 % 16 ∧
        t.fld F.HRN_BANK_ERR_INDEX = e.2 % 2 ^ F.HRN_BANK_ERR_INDEX.width) ∧
      (s.bankCheck (1 - bankAct s) = none → ¬ok → t.fld F.HRN_BANK_ERR = 7)) ∧
    (s.flag F.HRN_PAR_SWAP = true → exec .hrnParSwap s = .next s) ∧
    (s.flag F.HRN_PAR_SWAP = false → ∃ t, exec .hrnParSwap s = .next t ∧
      t.hrn = { s.hrn with par := .running } ∧ t.flag F.HRN_PAR_SWAP = true ∧
      rest t [F.HRN_PAR_SWAP.addr]) ∧
    (s.hrn.par ≠ .running → exec .hrnParCheckDone s = .next s) ∧
    (s.hrn.par = .running → ∃ t, exec .hrnParCheckDone s = .next t ∧ pageAct t = pageAct s ∧
      rest t [F.HRN_PAR_SWAP.addr] ∧
      (s.pageCheck (1 - pageAct s) = none → t.hrn = { s.hrn with par := .passed } ∧
        t.fld F.HRN_PAR_ERR = 0) ∧
      (∀ e, s.pageCheck (1 - pageAct s) = some e → t.hrn = { s.hrn with par := .none } ∧
        t.fld F.HRN_PAR_ERR = e.1 % 16 ∧ t.fld F.HRN_PAR_ERR_LANE = e.2 % 32 ∧
        t.flag F.HRN_PAR_SWAP = false)) ∧
    (∀ b o, b < 2 → s.hrn.poison.find? (fun w => decide (pageOff b ≤ w) && decide (w < pageOff b + 0x8000))
      = some o → s.pageCheck b = some (7, pageLane ((o - pageOff b) / 4)))

/-- R154, R156 to R160, R163 to R165, R167: a trigger is accepted, kept as the one pending, or counted as
lost; the bit of MDG_SWTRIG that asked for it reads 1 while it pends, and a 1 written to it meanwhile has no
further effect (the model's choice, a log entry); a conversion starts at its instant and ends 1 µs later, its code the
voltage in mV held to the end codes: DATA and STAMP take the result, the
Lacewing slots it feeds latch it, and the sequence goes on, ends, or is followed by the pending one.
Slices are swapped when due and between conversions; a starved swap is told once. A visit takes a
latch that was fresh before it. -/
def Obligations.ConvertersAndLatches : Prop :=
  ∀ (c : Conv) (p n : Int) (fail : Bool) (slot : Fin 64) (s : State),
    let v := s.conv c
    let code := max (-2048) (min 2047 (p - n))
    let f := fun (x : Fld) => convUp c x
    let others := fun (t : State) => (∀ d : Conv, d ≠ c → t.conv d = s.conv d) ∧ ∀ a, t.rd8 a = s.rd8 a
    let en := s.flagBit F.MDG_CTL_EN c
    let takes := fun (i : Instr) (sw : Bool) =>
      (s.flag (f F.MDG_CSTAT_BUSY) = false → ∃ t, exec i s = .next t ∧
        t.flag (f F.MDG_CSTAT_BUSY) = true ∧
        t.conv c = { v with entry := 0, converting := false, startAt := s.now + s.delayPs c
                            cfg := s.reg (R.MDG_CFG + 0x20 * c), seq := s.reg (R.MDG_SEQ + 0x20 * c) } ∧
        others t ∧ { t with convs := s.convs, regs := s.regs } = s ∧
        regsKept [(f F.MDG_CSTAT_BUSY).addr] s t) ∧
      (s.flag (f F.MDG_CSTAT_BUSY) = true → s.flag (f F.MDG_CSTAT_PEND) = false →
        ∃ t, exec i s = .next t ∧ t.flag (f F.MDG_CSTAT_PEND) = true ∧
          t.flagBit F.MDG_SWTRIG_TRIG c = (sw || s.flagBit F.MDG_SWTRIG_TRIG c) ∧
          t.conv c = { v with pendAt := s.now } ∧ others t ∧
          t.fld (f F.MDG_CNT_QUEUED) = min 65535 (s.fld (f F.MDG_CNT_QUEUED) + 1)) ∧
      (s.flag (f F.MDG_CSTAT_BUSY) = true → s.flag (f F.MDG_CSTAT_PEND) = true →
        ∃ t, exec i s = .next t ∧ t.flag (f F.MDG_CSTAT_LOST) = true ∧
          t.convs = s.convs ∧ t.fld (f F.MDG_CNT_TRIG_LOST) = min 65535 (s.fld (f F.MDG_CNT_TRIG_LOST) + 1) ∧
          t.flagBit F.MDG_SWTRIG_TRIG c = s.flagBit F.MDG_SWTRIG_TRIG c ∧
          (s.flag (f F.MDG_CSTAT_LOST) = false → t.flag (lineStat 0x11) = true))
    (en = false ∨ s.flagBit F.MDG_SWTRIG_TRIG c = true → exec (.mdgSwtrig c) s = .next s) ∧
    (en = true → s.flagBit F.MDG_SWTRIG_TRIG c = false → takes (.mdgSwtrig c) true) ∧
    (en = false ∨ s.fld (f F.MDG_CFG_TRIG_SRC) = 0 → exec (.mdgTrigger c) s = .next s) ∧
    (en = true → s.fld (f F.MDG_CFG_TRIG_SRC) ≠ 0 → takes (.mdgTrigger c) false) ∧
    (s.flag (f F.MDG_CSTAT_BUSY) = false ∨ v.converting = true ∨ s.flag F.FFY_STAT_GATED = true →
      exec (.conversionStart c) s = .next s) ∧
    (s.flag (f F.MDG_CSTAT_BUSY) = true → v.converting = false → s.flag F.FFY_STAT_GATED = false →
      ∃ t, exec (.conversionStart c) s = .next t ∧ t.now = max s.now v.startAt ∧
        t.conv c = { v with converting := true } ∧ others t) ∧
    (v.converting = false ∨ s.flag F.FFY_STAT_GATED = true →
      exec (.conversionResult c p n) s = .next s) ∧
    (v.converting = true → s.flag F.FFY_STAT_GATED = false →
      let u : Int := if cfgBits v.cfg F.MDG_CFG_SIGNED = 1 then code else code + 2048
      let go := v.entry < cfgBits v.cfg F.MDG_CFG_NENT
      ∃ t, exec (.conversionResult c p n) s = .next t ∧ t.now = max s.now (v.startAt + 10 ^ 6) ∧
        (t.fld (f F.MDG_DATA_DATA) : Int) =
          (if cfgBits v.cfg F.MDG_CFG_LEFT = 1 then u % 4096 * 16 else u % 65536) ∧
        t.fld (f F.MDG_DATA_ENTRY) = v.entry % 4 ∧ t.flag (f F.MDG_DATA_VALID) = true ∧
        t.fld (f F.MDG_DATA_CH) = bitsOf v.seq (4 * v.entry) 4 ∧
        t.reg (R.MDG_STAMP + 0x20 * c) = BitVec.ofInt 32
          ((((v.startAt + 187500 : Nat) : Int) + s.ffy.offset * 1000) / 1000) ∧ others t ∧
        (go → (t.conv c).entry = v.entry + 1 ∧ (t.conv c).converting = false ∧
          (t.conv c).startAt = v.startAt + 10 ^ 6) ∧
        (¬go → s.flag (f F.MDG_CSTAT_PEND) = false → t.flag (f F.MDG_CSTAT_BUSY) = false ∧
          (t.conv c).converting = false) ∧
        (¬go → s.flag (f F.MDG_CSTAT_PEND) = true → t.flag (f F.MDG_CSTAT_BUSY) = true ∧
          t.flag (f F.MDG_CSTAT_PEND) = false ∧ t.flagBit F.MDG_SWTRIG_TRIG c = false ∧ (t.conv c).entry = 0 ∧ (t.conv c).converting = false ∧
          (t.conv c).startAt = max (v.pendAt + s.delayPs c) t.now) ∧
        ∀ k, k < 64 → t.lslot k =
          (if s.slotFld k F.LCW_SRC_EN = 1 ∧ s.slotFld k F.LCW_SRC_CONV = c.val ∧
              s.slotFld k F.LCW_SRC_ENTRY = v.entry then
            { s.lslot k with latch := u, latchAt := t.now, fresh := true }
          else s.lslot k)) ∧
    (∃ t, exec (.mdgDataRead c) s = .next t ∧ t.hst.rdata = s.reg (R.MDG_DATA + 0x20 * c) ∧
      t.flag (f F.MDG_DATA_VALID) = false ∧ t.fld (f F.MDG_DATA_DATA) = s.fld (f F.MDG_DATA_DATA) ∧
      { t with hst := s.hst, regs := s.regs } = s ∧ regsKept [(f F.MDG_DATA_VALID).addr] s t) ∧
    (s.flag F.MDG_CTL_CAL_EN = false ∨ v.swapDue ≠ none ∨ v.swapping ≠ none →
      exec (.swapDue c) s = .next s) ∧
    (s.flag F.MDG_CTL_CAL_EN = true → v.swapDue = none → v.swapping = none →
      ∃ t, exec (.swapDue c) s = .next t ∧ t.now = max s.now v.swapNext ∧
        (t.conv c).swapDue = some t.now ∧ (t.conv c).swapNext = t.now + s.swapIntPs ∧ others t) ∧
    (s.swapMay c = false → exec (.swapStart c) s = .next s) ∧
    (s.swapMay c = true → ∃ t, exec (.swapStart c) s = .next t ∧
      t.conv c = { v with swapDue := none, swapping := some s.now } ∧ others t ∧
      { t with convs := s.convs } = s) ∧
    (v.swapping = none ∨ s.flag F.FFY_STAT_GATED = true → exec (.swapEnd c fail) s = .next s) ∧
    (∀ at_, v.swapping = some at_ → s.flag F.FFY_STAT_GATED = false → ∃ t, exec (.swapEnd c fail) s = .next t ∧
      t.now = max s.now (at_ + 32000) ∧ (t.conv c).swapping = none ∧ others t ∧
      (fail = true → t.flag (f F.MDG_CSTAT_CAL_FAIL) = true ∧
        t.fld (f F.MDG_CSTAT_SPARE) = s.fld (f F.MDG_CSTAT_SPARE)) ∧
      (fail = false → v.sliceFail = [] →
        t.fld (f F.MDG_CSTAT_SPARE) = (s.fld (f F.MDG_CSTAT_SPARE) + 1) % 13)) ∧
    (v.swapDue = none ∨ v.calTold = true → exec (.calStarved c) s = .next s) ∧
    (∀ at_, v.swapDue = some at_ → v.calTold = false → ∃ t, exec (.calStarved c) s = .next t ∧
      t.now = max s.now (at_ + 10 ^ 10) ∧ t.conv c = { v with calTold := true } ∧ others t ∧
      t.flag (f F.MDG_CSTAT_CAL_STARVED) = true ∧ t.flag (lineStat 0x10) = true) ∧
    (s.quiet = false → exec (.mdgRearm c) s = .next s) ∧
    (s.quiet = true → ∃ t, exec (.mdgRearm c) s = .next t ∧ t.flagBit F.MDG_STAT_FAIL c = false ∧
      (∀ d : Conv, d ≠ c → t.flagBit F.MDG_STAT_FAIL d = s.flagBit F.MDG_STAT_FAIL d) ∧
      t.conv c = { v with fails := 0, checks := [], skip := true } ∧ others t) ∧
    (s.nextVisit slot = none → exec (.lcwVisit slot) s = .next s) ∧
    (∀ at_, s.nextVisit slot = some at_ → ∃ t, exec (.lcwVisit slot) s = .next t ∧
      t.now = max s.now at_ ∧ (t.lslot slot).visitedAt = some at_ ∧
      { t with lcw := s.lcw, now := s.now } = s ∧
      (∀ k : Fin 64, k ≠ slot → t.lslot k = s.lslot k) ∧
      ((s.lslot slot).fresh = true → (s.lslot slot).latchAt < at_ →
        (t.lslot slot).fresh = false ∧
        (t.lslot slot).win = ((s.lslot slot).latch :: (s.lslot slot).win).take 5 ∧
        (t.lslot slot).outs.length = (s.lslot slot).outs.length + 1) ∧
      ((s.lslot slot).fresh = false ∨ at_ ≤ (s.lslot slot).latchAt →
        t.lslot slot = { s.lslot slot with visitedAt := some at_ }))

/-! ### Firefly (chapter 9) -/

/-- R235, R237, R238, R241 to R245: the rate is clamped to 200 ppm and slews 55 units a microsecond; a
step moves the time base in Blocked or Servicing with no sweep running, and is rejected else; a relock
gates the outputs, so that no lane sends and every PWM output is at its inactive level, takes every CK
lane out of LOCKED and PPS_OUT low, and ends 10 µs after lock, when lanes in CLOCK send again; three Syncs
in time make a domain valid, and one that goes invalid makes a switch to the other where that is tracked
and valid, a holdover where none is; the clock of a Sync takes an entry of the peer table while its domain
has one; stamps queue to eight and are read oldest first. R246 to R249: an enabled event fires when short
time reaches T, or at once with LATE when T is no longer ahead as it is enabled, written or stepped past;
a repeating event moves T on by whole periods, counting those missed, a single one is disabled, and its
Hive flag is set where HIVE is 1; event 0 is a source of the capture channels. An edge at a contact is
taken by the channels that name it, each of which keeps the first event's time; PPS rises at a whole
second and falls PPS_W ms later. -/
def Obligations.FireflyTimeAndEvents : Prop :=
  (∀ (src : Src) (v : Word) (b : Bool) (p : BitVec 80) (k : Fin 5) (s : State),
      let clamp := fun (x : Int) => max (-219902325) (min 219902325 x)
      let act := s.regS R.FFY_RATE_ACT
      let target := s.regS R.FFY_RATE
      let rejected := fun (c : Instr) => ∃ t, exec c s = .next t ∧ t.flag (lineStat 0x00) = true ∧
        t.untold s = s ∧ regsTold [] s t
      let d := s.dom b
      let good := 0 < d.run ∧ s.now ≤ d.last + s.syncTo * syncInterval k
      let invalid := fun (c : Instr) (now : Nat) => ∃ t, exec c s = .next t ∧ t.now = now ∧
        t.flag (domValid b) = false ∧ (t.dom b).run = 0 ∧
        (s.flag (domValid !b) = true → s.tracked (!b) = true → t.flag F.FFY_STAT_HOLDOVER = s.flag F.FFY_STAT_HOLDOVER ∧
          (s.flag F.FFY_STAT_DOM_SEL = b → t.flag F.FFY_STAT_DOM_SEL = !b ∧
            t.flag F.FFY_STAT_DOM_SW = true ∧ t.flag (lineStat 0x18) = true)) ∧
        (s.flag (domValid !b) = false ∨ s.tracked (!b) = false → t.flag F.FFY_STAT_HOLDOVER = true ∧
          (s.flag F.FFY_STAT_HOLDOVER = false → t.flag (lineStat 0x19) = true) ∧
          t.flag F.FFY_STAT_DOM_SEL = s.flag F.FFY_STAT_DOM_SEL)
      (∃ t, exec (.rateWrite v) s = .next t ∧ t.regS R.FFY_RATE = clamp v.toInt ∧
        t.flag F.FFY_STAT_RANGE = (s.flag F.FFY_STAT_RANGE || decide (clamp v.toInt ≠ v.toInt)) ∧
        t.flag F.FFY_STAT_SLEWING = decide (act ≠ clamp v.toInt) ∧
        onlyRegs [R.FFY_RATE, F.FFY_STAT_RANGE.addr] s t) ∧
      (act = target ∨ s.flag F.FFY_STAT_HOLDOVER = true → exec .rateSlew s = .next s) ∧
      (act ≠ target → s.flag F.FFY_STAT_HOLDOVER = false → ∃ t, exec .rateSlew s = .next t ∧
        t.now = max s.now (s.ffy.slewAt + 10 ^ 6) ∧ t.ffy = { s.ffy with slewAt := t.now } ∧
        t.regS R.FFY_RATE_ACT =
          (if act < target then min target (act + 55) else max target (act - 55)) ∧
        regsKept [R.FFY_RATE_ACT, F.FFY_STAT_SLEWING.addr] s t) ∧
      (s.quiet = false ∨ s.running = true → rejected (.timebaseStep src)) ∧
      (s.quiet = true → s.running = false → ∃ t, exec (.timebaseStep src) s = .next t ∧
        t.now = s.now ∧ t.ffy.offset = s.ffy.offset + (s.reg64 R.FFY_STEP_LO).toInt ∧
        ∀ n, n < 16 → s.flag (evUp n F.FFY_EV_CTL_EN) = true →
          0 ≤ sdiff t.shortTime (s.reg (evT n)) → t.flag (evUp n F.FFY_EV_CTL_LATE) = true) ∧
      (s.ffy.relock = true → exec (.relock src) s = .next s) ∧
      (s.ffy.relock = false → s.opState ≠ stBlocked ∨ s.running = true → rejected (.relock src)) ∧
      (s.ffy.relock = false → s.opState = stBlocked → s.running = false →
        ∃ t, exec (.relock src) s = .next t ∧
          t.ffy = { s.ffy with relock := true, lockAt := none, pps := false } ∧
          t.regS R.FFY_RATE_ACT = clamp target ∧ t.flag F.FFY_STAT_GATED = true ∧
          t.flag F.FFY_STAT_LOCK = false ∧ t.flag F.FFY_CTL_RELOCK = true ∧
          t.pwmFrozen = true ∧ (∀ m, m < 12 → t.pwmLevel m = s.flag (pwmUp m F.PWM_CFG_POL)) ∧
          (∀ q : Port, t.laneLocked q ckLane = false ∧ ∀ l, l ∈ allLanes q → (t.lane q l).tx.line = []) ∧
          ∀ a, t.rd8 a = s.rd8 a) ∧
      (s.ffy.relock = false ∨ s.ffy.lockAt ≠ none → exec .pllLock s = .next s) ∧
      (s.ffy.relock = true → s.ffy.lockAt = none → ∃ t, exec .pllLock s = .next t ∧
        t.ffy = { s.ffy with lockAt := some s.now } ∧ { t with ffy := s.ffy } = s) ∧
      (s.ffy.lockAt = none → exec .outputRelease s = .next s) ∧
      (∀ at_, s.ffy.lockAt = some at_ → ∃ t, exec .outputRelease s = .next t ∧
        t.now = max s.now (at_ + 10 ^ 7) ∧
        t.ffy = { s.ffy with relock := false, lockAt := none, releasedAt := t.now } ∧
        t.flag F.FFY_STAT_GATED = false ∧ t.flag F.FFY_STAT_LOCK = true ∧
        t.flag F.FFY_CTL_RELOCK = false ∧
        ∀ (q : Port) (l : DLane), hasLane q l = true → s.phase q l = phClock → (s.lane q l).sending = false →
          (t.lane q l).tx.line = [true, true, true, true, false, false, false, false]) ∧
      (s.tracked b = false → exec (.syncRx b p k) s = .next s) ∧
      (s.tracked b = true → ∃ t, exec (.syncRx b p k) s = .next t ∧ t.dom (!b) = s.dom (!b) ∧
        (((b, p) ∈ s.ffy.peers ∨ s.fld F.FFY_PTP_GROUP_N ≤ s.peerCount b ∨ 32 ≤ s.ffy.peers.length) →
          t.ffy.peers = s.ffy.peers) ∧
        ((b, p) ∉ s.ffy.peers → s.peerCount b < s.fld F.FFY_PTP_GROUP_N → s.ffy.peers.length < 32 →
          t.ffy.peers = s.ffy.peers ++ [(b, p)]) ∧
        (¬good → t.dom b = { run := 1, last := s.now, interval := syncInterval k } ∧ t.regs = s.regs) ∧
        (good → t.dom b = { run := min 3 (d.run + 1), last := s.now, interval := syncInterval k } ∧
          t.flag (domValid b) = (s.flag (domValid b) || decide (2 ≤ d.run)) ∧
          (2 ≤ d.run → s.flag (domValid b) = false → s.flag (domValid !b) = false →
            t.flag F.FFY_STAT_DOM_SEL = b ∧ t.flag F.FFY_STAT_HOLDOVER = false))) ∧
      (s.flag (domValid b) = false → exec (.syncTimeout b) s = .next s) ∧
      (s.flag (domValid b) = true →
        invalid (.syncTimeout b) (max s.now (d.last + s.syncTo * d.interval)) ∧
        invalid (if b then .invB else .invA) s.now) ∧
      (s.flag (domValid b) = false → ∃ t, exec (if b then .invB else .invA) s = .next t ∧
        (t.dom b).run = 0 ∧ { t with ffy := s.ffy } = s) ∧
      (s.ffy.stamps = [] → exec .txtsArrive s = .next s) ∧
      (∀ x r, s.ffy.stamps = x :: r → ∃ t, exec .txtsArrive s = .next t ∧ t.ffy.stamps = r ∧
        (s.ffy.txq.length < 8 → t.ffy.txq = s.ffy.txq ++ [x]) ∧
        (8 ≤ s.ffy.txq.length → t.ffy.txq = s.ffy.txq ∧ t.flag F.FFY_STAT_TXTS_OVF = true ∧
          t.fld F.FFY_TXTS_HDR_LOST = min 127 (s.fld F.FFY_TXTS_HDR_LOST + 1))) ∧
      (∃ t, exec .txtsHdrRead s = .next t ∧ t.ffy.txq = s.ffy.txq.tail ∧
        t.hst.rdata = t.reg R.FFY_TXTS_HDR ∧ t.flag F.FFY_TXTS_HDR_VALID = !s.ffy.txq.isEmpty ∧
        ∀ x, s.ffy.txq.head? = some x → t.fld F.FFY_TXTS_HDR_SEQID = x.seqId % 2 ^ 16 ∧
          t.flag F.FFY_TXTS_HDR_PORT = x.port ∧ t.flag F.FFY_TXTS_HDR_DOMIDX = x.domB ∧
          t.reg64 R.FFY_TXTS_LO = BitVec.ofNat 64 x.time)) ∧
  (∀ (n : Fin 16) (c : Fin 8) (src : Fin 3) (v : Word) (s : State),
      let en := evUp n F.FFY_EV_CTL_EN
      let per := evPeriod (s.reg (R.FFY_EV_PER + 0x10 * n)).toNat
      let fired := fun (T : Word) (d : Int) (t : State) =>
        (per = 0 → t.flag en = false ∧ t.reg (evT n) = T) ∧
        (0 < per → t.flag en = true ∧ t.reg (evT n) = T + BitVec.ofNat 32 ((d.toNat / per + 1) * per) ∧
          t.fld (evUp n F.FFY_EV_CTL_MISSED) =
            min 255 (s.fld (evUp n F.FFY_EV_CTL_MISSED) + d.toNat / per)) ∧
        (s.flag (evUp n F.FFY_EV_CTL_HIVE) = true →
          (t.htask (s.fld (evUp n F.FFY_EV_CTL_TASK))).flags.getLsbD (s.fld (evUp n F.FFY_EV_CTL_FLAG)) = true) ∧
        (n.val = 0 → s.fld (evUp c F.FFY_CAP_CTL_SRC) = 7 → t.flag (evUp c F.FFY_CAP_CTL_VALID) = true) ∧
        (∀ a, t.rd8 a = s.rd8 a)
      let late := evUp n F.FFY_EV_CTL_LATE
      let cap := evUp c F.FFY_CAP_CTL_VALID
      let time := R.FFY_CAP_LO + 0x10 * c.val
      (s.flag en = false → exec (.eventFire n) s = .next s) ∧
      (s.flag en = true → ∃ t, exec (.eventFire n) s = .next t ∧
        fired (s.reg (evT n)) (max 0 (s.evDiff n)) t ∧ t.flag late = s.flag late ∧
        (0 ≤ s.evDiff n → t.now = s.now) ∧ (s.evDiff n < 0 → t.shortTime = s.reg (evT n))) ∧
      (s.flag en = false ∨ sdiff s.shortTime v < 0 → ∃ t, exec (.evTWrite n v) s = .next t ∧
        t.reg (evT n) = v ∧ onlyRegs [evT n] s t) ∧
      (s.flag en = true → 0 ≤ sdiff s.shortTime v → ∃ t, exec (.evTWrite n v) s = .next t ∧
        fired v (sdiff s.shortTime v) t ∧ t.flag late = true ∧ t.now = s.now) ∧
      (s.flag en = true → exec (.evEnable n) s = .next s) ∧
      (s.flag en = false → s.evDiff n < 0 → ∃ t, exec (.evEnable n) s = .next t ∧ t.flag en = true ∧
        onlyRegs [en.addr] s t) ∧
      (s.flag en = false → 0 ≤ s.evDiff n → ∃ t, exec (.evEnable n) s = .next t ∧
        fired (s.reg (evT n)) (s.evDiff n) t ∧ t.flag late = true ∧ t.now = s.now) ∧
      (∃ t, exec (.capture src) s = .next t ∧ { t with regs := s.regs, pwm := s.pwm } = s ∧
        t.pwm = { s.pwm with fltLow := s.pwm.fltLow && src.val != 2 } ∧
        t.flag F.PWM_FLT_PIN = (s.flag F.PWM_FLT_PIN && src.val != 2) ∧
        (∀ a, a ≠ F.PWM_FLT_PIN.addr → ¬(R.FFY_CAP_CTL ≤ a ∧ a < R.FFY_CAP_CTL + 0x80) → t.reg a = s.reg a) ∧
        (s.fld (evUp c F.FFY_CAP_CTL_SRC) ≠ src.val → t.reg cap.addr = s.reg cap.addr ∧
          t.reg64 time = s.reg64 time) ∧
        (s.fld (evUp c F.FFY_CAP_CTL_SRC) = src.val → t.flag cap = true ∧
          (s.flag cap = true → t.flag (evUp c F.FFY_CAP_CTL_OVR) = true ∧ t.reg64 time = s.reg64 time) ∧
          (s.flag cap = false → t.reg64 time = BitVec.ofNat 64 s.ns ∧
            t.flag (evUp c F.FFY_CAP_CTL_OVR) = s.flag (evUp c F.FFY_CAP_CTL_OVR)))) ∧
      (s.flag F.FFY_CTL_PPS_EN = false ∨ s.flag F.FFY_STAT_GATED = true ∨ s.ffy.pps = true →
        exec .ppsRise s = .next s) ∧
      (s.flag F.FFY_CTL_PPS_EN = true → s.flag F.FFY_STAT_GATED = false → s.ffy.pps = false →
        ∃ t, exec .ppsRise s = .next t ∧ t.ffy.pps = true ∧ t.ffyPs % 10 ^ 12 = 0 ∧ s.now ≤ t.now ∧
          t.now < s.now + 10 ^ 12 ∧ t.ffy.ppsFall = t.now + max 1 (s.fld F.FFY_CTL_PPS_W) * 10 ^ 9 ∧
          { t with ffy := s.ffy, now := s.now } = s) ∧
      (s.ffy.pps = false → exec .ppsFall s = .next s) ∧
      (s.ffy.pps = true → ∃ t, exec .ppsFall s = .next t ∧ t.ffy = { s.ffy with pps := false } ∧
        t.now = max s.now s.ffy.ppsFall ∧ { t with ffy := s.ffy, now := s.now } = s))

/-! ### Moth and Termite (chapter 13) -/

/-- R318, R319, R320, R322, R323: a completed record has its tag and is HEAD, and an armed capture
takes it; TRIG fires source 0 and reads 1; LOSS_CLR clears LOSS; ARM in IDLE and FROZEN arms at the next admission
point, and is discarded else; EN and MODE come into effect there. -/
def Obligations.MothCommands : Prop :=
  ∀ (en mode : Bool) (s : State),
    let idle := s.mphase = phIdle ∨ s.mphase = phFrozen
    let admits := s.crk.nextAdm ≠ none ∧ s.crk.commitDue = none ∧ s.crk.gridDue = false
    (s.mth.writing = none → exec .recordDone s = .next s) ∧
    (∀ r, s.mth.writing = some r → r.last = false → ∃ t, exec .recordDone s = .next t ∧
      t.mth = { s.mth with writing := none } ∧ { t with mth := s.mth } = s) ∧
    (∀ r, s.mth.writing = some r → r.last = true → r.slot < 4096 → ∃ t, exec .recordDone s = .next t ∧
      t.mth.writing = none ∧ t.reg (tagAddr r.slot) = r.sweep ∧
      t.reg (tagAddr r.slot + 4) = BitVec.ofNat 32 (r.flags + 1 + 65536 * r.n) ∧
      t.reg R.MTH_HEAD = r.sweep ∧ t.mth.open_ = s.mth.open_ ∧
      (s.mphase = phArmed → t.mth.cap = r :: s.mth.cap.take (s.ringDepth - 1)) ∧
      (s.mphase = phIdle → t.mth.cap = s.mth.cap) ∧
      (s.mphase = phPost → s.mth.trigDone = true → s.mth.postLeft ≤ 1 → t.mphase = phFrozen)) ∧
    (∃ t, exec .trig s = .next t ∧ t.mth = { s.mth with fired := s.mth.fired ||| 1 } ∧
      t.flag F.MTH_CTL_TRIG = true ∧ { t with mth := s.mth, regs := s.regs } = s ∧ t.flag F.MTH_CTL_ARM = s.flag F.MTH_CTL_ARM ∧
      regsKept [F.MTH_CTL_TRIG.addr] s t) ∧
    (∃ t, exec .lossClr s = .next t ∧ t.reg R.MTH_LOSS = 0 ∧ onlyRegs [R.MTH_LOSS] s t) ∧
    (s.crk.nextAdm = none →
      (idle → ∃ t, exec .arm s = .next t ∧ t.flag F.MTH_CTL_ARM = true ∧
        onlyRegs [F.MTH_CTL_ARM.addr] s t) ∧
      (¬idle → exec .arm s = .next s) ∧
      (∃ t, exec (.mothModeChange en mode) s = .next t ∧ t.flag F.MTH_CTL_EN = en ∧
        t.flag F.MTH_CTL_MODE = mode ∧ onlyRegs [F.MTH_CTL_EN.addr] s t)) ∧
    (admits →
      (idle → ∃ t, exec .arm s = .next t ∧ t.mphase = phArmed ∧ t.flag F.MTH_CTL_ARM = false ∧
        t.mth.cap = []) ∧
      (∃ t, exec (.mothModeChange en mode) s = .next t ∧ t.mth.en = en ∧ t.mth.red = mode ∧
        (mode ≠ s.mth.red → t.mth.open_ = none ∧ t.mth.writing = none ∧ t.mth.cap = [])))

/-- R325, R326, R329, R330: START takes the descriptor, and a poisoned or disordered one ends the job
at once with its code; a stream job then waits for records with its chain's first entry. Output that
waits at the end of the chain suspends the engine until RESUME; ABORT ends a job with ABORTED, FINISH
closes a stream and reads 1 until the job has ended, and a closed job whose output is placed ends: its results stand in the descriptor,
DONE is set and its event flag raised. -/
def Obligations.TermiteJobs : Prop :=
  ∀ (e : Fin 2) (s : State),
    let j := s.job e
    let d := 64 * s.fld (trmFld e F.TRM_DESC_ADDR)
    let ended := fun (t : State) (code : Nat) =>
      t.trmBusy e = false ∧ t.trmSusp e = false ∧ t.flag (trmFld e F.TRM_CMD_FINISH) = false ∧
      t.flag (trmFld e F.TRM_STAT_DONE) = true ∧
      t.fld (trmFld e F.TRM_STAT_CODE) = code % 2 ^ F.TRM_STAT_CODE.width ∧ t.job e = {}
    let results := fun (t : State) (code : Nat) => j.desc < 0x02000000 →
      (∀ i, i < 16 → s.bankOpen (j.desc + 20 + i) = true) →
      t.rd32 (j.desc + 20) = BitVec.ofNat 32 code ∧ t.rd32 (j.desc + 24) = BitVec.ofNat 32 (min j.inBytes 0xFFFFFFFF) ∧
      t.rd32 (j.desc + 28) = BitVec.ofNat 32 (min j.outBytes 0xFFFFFFFF) ∧ t.rd32 (j.desc + 32) = ~~~j.crc ∧
      memKept (j.desc + 20) 16 s t ∧
      (j.notify = true → j.hflag < 64 → (t.htask j.htask).flags.getLsbD j.hflag = true)
    (s.trmBusy e = true → exec (.trmStart e) s = .next s) ∧
    (s.trmBusy e = false → d < 0x02000000 →
      (s.poisoned d 64 = true → ∃ t, exec (.trmStart e) s = .next t ∧ ended t tcPoison) ∧
      (s.poisoned d 64 = false → s.jobOk (s.jobAt d) = false →
        ∃ t, exec (.trmStart e) s = .next t ∧ ended t tcDesc) ∧
      (s.poisoned d 64 = false → s.jobOk (s.jobAt d) = true → (s.jobAt d).src = 2 →
        (s.mothTaken e = true → ∃ t, exec (.trmStart e) s = .next t ∧ ended t tcMothState) ∧
        (∀ addr len host, s.mothTaken e = false →
          s.chainEntry (s.rdN (d + 12) 4) = .ok (addr, len, host) →
          ∃ t, exec (.trmStart e) s = .next t ∧ t.trmBusy e = true ∧ t.mem = s.mem ∧
            t.job e = { s.jobAt d with
              entry := s.rdN (d + 12) 4, dest := addr, left := len, host := host, hostUsed := host }))) ∧
    (s.trmBusy e = false ∨ s.trmSusp e = false → exec (.trmResume e) s = .next s) ∧
    (s.trmBusy e = true → s.trmSusp e = true → ∃ t, exec (.trmResume e) s = .next t ∧
      t.trmSusp e = false ∧ (t.trmBusy e = true → t.fld (trmFld e F.TRM_STAT_CODE) = 0)) ∧
    (s.trmBusy e = false ∨ j.src ≠ 2 ∨ j.closed = true → exec (.trmFinish e) s = .next s) ∧
    (s.trmBusy e = true → j.src = 2 → j.closed = false → ∃ t, exec (.trmFinish e) s = .next t ∧
      (t.trmBusy e = true → (t.job e).closed = true ∧ (t.job e).code = tcOk ∧ (t.job e).toRead = [] ∧
        (t.job e).crc = j.crc ∧ (t.job e).inBytes = j.inBytes ∧
        t.flag (trmFld e F.TRM_CMD_FINISH) = true) ∧
      (t.trmBusy e = false → t.flag (trmFld e F.TRM_CMD_FINISH) = false)) ∧
    (s.trmBusy e = false → exec (.trmAbort e) s = .next s) ∧
    (s.trmBusy e = true → ∃ t, exec (.trmAbort e) s = .next t ∧ ended t tcAborted ∧ results t tcAborted) ∧
    (s.trmBusy e = false ∨ s.trmSusp e = true ∨ s.chainFull e = false →
      exec (.outFull e) s = .next s) ∧
    (s.trmBusy e = true → s.trmSusp e = false → s.chainFull e = true →
      ∃ t, exec (.outFull e) s = .next t ∧ t.trmSusp e = true ∧
        t.fld (trmFld e F.TRM_STAT_CODE) = tcOutFull ∧ onlyRegs [(trmFld e F.TRM_STAT_SUSP).addr] s t) ∧
    (s.trmBusy e = false ∨ j.closed = false ∨ j.output ≠ [] → exec (.trmJobEnd e) s = .next s) ∧
    (s.trmBusy e = true → j.closed = true → j.output = [] → ∃ t, exec (.trmJobEnd e) s = .next t ∧
      ended t j.code ∧ results t j.code)

/-! ### The twin (chapter 14) -/

/-- R336, R343, R348: a beat instant checks for the partner's beat of the previous beat instant, by the sweep and
the number in its header, a STANDBY counting a miss, and
sends on each lane of port T a beat frame whose header has the sweep of the last commit point, the role and
the beat's number; a frame read back gives its header and its record units. A valid beat received brings
the partner's role, readiness, signature and, from four lanes, the record, whose bulk goes into the mirror
region of a STANDBY. The third miss in succession takes a STANDBY to ARMING when it may, else to NONE. -/
def Obligations.TwinBeats : Prop :=
  ∀ (h : BitVec 128) (us : List (List Byte)) (lines : List (List Bool)) (arrival : Int)
    (tracks : List (Fin 3)) (s : State),
    let rx := Instr.beatRx lines arrival tracks
    let heard := if s.twinOn then beatHead (s.lanesBeat lines) else none
    let record := beatRecord (s.lanesBeat lines)
    let held := match s.twn.lastBeat with
      | none => !s.twn.beats.isEmpty
      | some k => s.twn.beats.contains k
    (h.getLsbD 81 = false → beatParse (beatBits h none) = some (h, none)) ∧
    (h.getLsbD 81 = true → (∀ u ∈ us, u.length = 16) → beatParse (beatBits h (some us)) = some (h, some us)) ∧
    (s.twn.nextBeat = none ∨ s.twinOn = false → exec .beatInstant s = .next s) ∧
    (∀ at_, s.twn.nextBeat = some at_ → s.twinOn = true → ∃ t x, exec .beatInstant s = .next t ∧
      t.now = max s.now at_ ∧ t.twn.sent = some x ∧ fieldOf x 96 32 = s.twn.beatSweep.toNat ∧
      fieldOf x 86 2 = s.role ∧ fieldOf x 83 3 = s.opState ∧ fieldOf x 81 1 = 0 ∧
      fieldOf x 4 4 = s.twn.beatNo % 16 ∧ fieldOf x 0 4 = 1 ∧
      t.twn.beatNo = s.twn.beatNo + 1 ∧ t.twn.beats = s.twn.beats ∧ t.role = s.role ∧
      t.twn.lastBeat = some (s.twn.beatSweep, s.twn.beatNo % 16) ∧
      t.flag F.TWN_STAT_P_OK = held ∧ (∀ a, t.rd8 a = s.rd8 a) ∧
      (s.role = roleStandby → t.twn.misses = (if held then 0 else s.twn.misses + 1)) ∧
      (s.role ≠ roleStandby → t.twn.misses = s.twn.misses) ∧
      (s.twn.ho = .req → t.twn.ho = .none ∧ t.flag F.TWN_CTL_HANDOVER = false) ∧
      ∀ l, l < 4 → s.streams portT l = true → s.flag F.FFY_STAT_GATED = false →
        s.impMode portT l = impNone → let q := s.lane portT l
        (t.lane portT l).tx =
          (q.tx.zeros false ((t.now - q.txAt) / uiPs)).1.carry false 0 (beatBits x none)) ∧
    ((∀ l, l < 4 → s.streams portT l = false) → exec rx s = .next s) ∧
    (heard = none → ∃ t, exec rx s = .next t ∧ t.twn = s.twn ∧ t.role = s.role ∧ ∀ a, t.rd8 a = s.rd8 a) ∧
    (∀ h, heard = some h → ∃ t, exec rx s = .next t ∧ t.twn.seen = true ∧
      t.twn.beats.head? = some (h.extractLsb' 96 32, fieldOf h 4 4) ∧
      t.twn.arrival = arrival ∧ t.fld F.TWN_STAT_P_ROLE = hdrRole h ∧
      t.flag F.TWN_STAT_P_READY = hdrReady h ∧ t.reg R.TWN_PSIG = hdrSig h ∧
      (∀ r, record = some r → t.twn.record = r ∧ t.twn.recNew = true ∧ t.reg R.TWN_REC = rec32 r 0 ∧
        memKept mirrorBase 0x800010 s t ∧ (s.role = roleActive → ∀ a, t.rd8 a = s.rd8 a)) ∧
      (record = none → t.twn.record = s.twn.record ∧ ∀ a, t.rd8 a = s.rd8 a)) ∧
    (s.role ≠ roleStandby ∨ s.twn.misses < 3 → exec .twinLoss s = .next s) ∧
    (s.role = roleStandby → 3 ≤ s.twn.misses → ∃ t, exec .twinLoss s = .next t ∧
      t.flag F.TWN_STAT_LOSS = true ∧ t.flag (lineStat 0x24) = true ∧
      t.role = (if s.mayArm then roleArming else roleNone) ∧
      t.fld F.TWN_STAT_CAUSE = (if s.mayArm then causeTakeover else causeLoss) ∧
      t.twn.roleAt = s.now ∧ t.twn.misses = 0 ∧ ∀ a, t.rd8 a = s.rd8 a)

/-- R333 to R335, R344, R347, R348: the commands and events that move the role. Those that take effect
at an admission point are said here with one that follows, and without. -/
def Obligations.TwinRoles : Prop :=
  ∀ (low : Bool) (s : State),
    let admits := s.crk.nextAdm ≠ none ∧ s.crk.commitDue = none ∧ s.crk.gridDue = false
    let h := s.reg R.TWN_HO
    let limit := s.twn.lastCommit.getD 0 + 3 * s.period * 1000
    let conflict := s.active && s.actIn && s.twn.ho == Handover.none && !s.twn.conflictTold
    let solo := s.twinOn && decide (s.role = roleNone) && s.flag F.TWN_CFG_SOLO_EN &&
      !(s.portUp portT) && !s.actIn && s.mgmtOk
    (s.actIn = low → exec (.actInChange low) s = .next s) ∧
    (s.actIn ≠ low → ∃ t, exec (.actInChange low) s = .next t ∧ t.actIn = low ∧
      t.twn = { s.twn with actInAt := s.now, conflictTold := false } ∧
      { t with twn := s.twn, regs := s.regs } = s ∧ regsKept [F.TWN_STAT_ACT_IN.addr] s t) ∧
    (conflict = false → exec .twnConflict s = .next s) ∧
    (conflict = true → ∃ t, exec .twnConflict s = .next t ∧ t.flag F.TWN_STAT_CONFLICT = true ∧
      t.now = max s.now (max s.twn.actInAt s.twn.roleAt + 10 ^ 6) ∧ t.flag (lineStat 0x22) = true ∧
      t.role = s.role ∧ t.twn.conflictTold = true ∧
      t.twn.conflict = (s.twinOn && s.flag F.TWN_CFG_UNIT != s.flag F.TWN_CFG_PREF_UNIT)) ∧
    (s.twn.actOut = false ∨ (∃ c, s.nextCommit = some c ∧ c ≤ limit) → exec .roleLineRelease s = .next s) ∧
    (s.twn.actOut = true → (∀ c, s.nextCommit = some c → limit < c) → ∃ t, exec .roleLineRelease s = .next t ∧
      t.twn.actOut = false ∧ t.now = max s.now limit ∧
      (s.twinOn = true → s.active = true →
        t.role = roleNone ∧ t.fld F.TWN_STAT_CAUSE = causeLine) ∧
      (s.twinOn = false ∨ s.active = false → t.role = s.role)) ∧
    (solo = false → exec .soloTimeout s = .next s) ∧
    (solo = true → ∃ t, exec .soloTimeout s = .next t ∧ t.role = roleActive ∧
      t.fld F.TWN_STAT_CAUSE = causeStart ∧
      t.now = max s.now (s.mod.readyAt + max 1 (s.fld F.TWN_CFG_SOLO_MS) * 10 ^ 9) ∧
      ∀ p : Fin 6, t.fld (portFld p F.DFY_FSTAT_EPOCH) = (s.fld (portFld p F.DFY_FSTAT_EPOCH) + 1) % 256) ∧
    (s.twinOn = false → exec .handover s = .next s) ∧
    (s.twinOn = true →
      (s.twn.ho ≠ .none ∨ (s.active = false ∧ s.role ≠ roleStandby) → exec .handover s = .next s) ∧
      (s.active = true → s.twn.ho = .none → s.flag F.TWN_STAT_P_READY = true →
        ∃ t, exec .handover s = .next t ∧ t.twn = { s.twn with ho := .ann, hoAck := false } ∧
          t.reg R.TWN_HO = BitVec.ofNat 32 (s.comingNum + 16) ∧
          { t with twn := s.twn, regs := s.regs } = s ∧ regsKept [R.TWN_HO] s t) ∧
      (s.active = true → s.twn.ho = .none → s.flag F.TWN_STAT_P_READY = false →
        ∃ t, exec .handover s = .next t ∧ t.flag F.TWN_STAT_HO_FAIL = true ∧
          onlyRegs [F.TWN_STAT_HO_FAIL.addr] s t) ∧
      (s.role = roleStandby → s.twn.ho = .none → ∃ t, exec .handover s = .next t ∧
        t.twn = { s.twn with ho := .req } ∧ t.flag F.TWN_CTL_HANDOVER = true ∧
        { t with twn := s.twn, regs := s.regs } = s ∧ regsKept [F.TWN_CTL_HANDOVER.addr] s t)) ∧
    (s.twn.freeFrom = none ∨ s.readySb = false ∨ s.twinOn = false ∨ s.flag F.TWN_CTL_AUTO_RET = false →
      exec .autoReturn s = .next s) ∧
    (∀ at_, s.twn.freeFrom = some at_ → s.readySb = true → s.twinOn = true →
      s.flag F.TWN_CTL_AUTO_RET = true → s.twn.ho = .none → ∃ t, exec .autoReturn s = .next t ∧
        t.now = max s.now (at_ + 6 * 10 ^ 14) ∧ t.twnRet = 600 ∧ t.flag F.TWN_CTL_HANDOVER = true ∧
        t.twn = { s.twn with ho := .req }) ∧
    (s.crk.nextAdm = none → exec .takeover s = .next s ∧
      (s.twinOn = false ∨ s.active = false → exec .release s = .next s) ∧
      (s.twinOn = true → s.active = true → ∃ t, exec .release s = .next t ∧
        t.flag F.TWN_CTL_RELEASE = true ∧ onlyRegs [F.TWN_CTL_RELEASE.addr] s t)) ∧
    (s.twn.ho = .none ∨ s.twn.ho = .req ∨ s.comingNum ≠ h.toNat →
      exec .handoverSwitch s = .next s) ∧
    (∀ a, s.crk.nextAdm = some a → s.armingDue (max s.now a) = false → exec .takeover s = .next s) ∧
    (admits → s.twinOn = true →
      (s.active = true → ∃ t, exec .release s = .next t ∧ t.role = roleNone ∧
        t.fld F.TWN_STAT_CAUSE = causeRelease ∧ t.flag F.TWN_CTL_RELEASE = false) ∧
      (∀ a, s.crk.nextAdm = some a → s.armingDue (max s.now a) = true →
        ∃ t, exec .takeover s = .next t ∧
          (s.actIn = true → t.role = roleNone ∧ t.fld F.TWN_STAT_CAUSE = causeLoss) ∧
          (s.actIn = false → t.role = roleActive ∧ t.fld F.TWN_STAT_CAUSE = causeTakeover ∧
            t.flag F.TWN_STAT_TAKEOVER = true ∧ t.flag (lineStat 0x25) = true ∧
            (s.twn.record ≠ [] → ∀ p : Fin 6,
              t.fld (portFld p F.DFY_FSTAT_EPOCH) = (byteAt s.twn.record 4 + 1) % 256))) ∧
      (s.crk.nextNum = h.toNat → s.flag F.TWN_CTL_RELEASE = false → s.twn.conflict = false →
        (s.active = true → s.twn.ho = .go → ∃ t, exec .handoverSwitch s = .next t ∧
          t.role = roleStandby ∧ t.fld F.TWN_STAT_CAUSE = causeHandover ∧
          t.flag F.TWN_STAT_HO_DONE = true) ∧
        (s.role = roleStandby → s.twn.ho = .go → ∃ t, exec .handoverSwitch s = .next t ∧
          t.role = roleActive ∧ t.fld F.TWN_STAT_CAUSE = causeHandover ∧
          t.flag F.TWN_STAT_HO_DONE = true) ∧
        (s.role = roleStandby → s.twn.ho = .ann → ∃ t, exec .handoverSwitch s = .next t ∧
          t.role = roleStandby ∧ t.twn.ho = .none ∧ t.flag F.TWN_STAT_HO_FAIL = true)))

/-! ### Mantis (chapter 15) -/

/-- R352 to R358, R360, R367 to R369: the inputs of tested functions are held from the start of their
channel's pulse until 100 µs after its end, and are then evaluated again; a level reaches evaluation unless
its input is held; a channel that has shown demand for the filter time demands, two that disagree too long
demand as a discrepancy, and where a hold ends before either is due, the levels are those from its end on; each output pulses once in its period, one at a time, and at the end of a pulse a
tested channel that stayed high through its own pulse, or was taken low by the other's, demands with
TPFAIL and a report, and nothing else does; TRIP and internal faults demand; UNLOCK and CONFIRM change the
lock in Blocked and Servicing only. -/
def Obligations.MantisDemands : Prop :=
  ∀ (i : Fin 16) (f : Fin 8) (b high : Bool) (key : BitVec 16) (v : Word) (output : Fin 4) (s : State),
    let rejected := fun (c : Instr) => ∃ t, exec c s = .next t ∧ t.flag (lineStat 0x00) = true ∧
      t.untold s = s ∧ regsTold [] s t
    let overA := s.mts.heldA && !s.mts.tpaLow && decide (s.mts.tpaEnd + 10 ^ 8 ≤ s.now)
    let overB := s.mts.heldB && !s.mts.tpbLow && decide (s.mts.tpbEnd + 10 ^ 8 ≤ s.now)
    let again := fun (j : Nat) => if j % 2 = 0 then overA else overB
    let u := mtsSettle s
    let low := s.mts.tpaLow || s.mts.tpbLow
    let dueDemand := fun (v : State) => (v.demandSince f).map (fun t => t + v.fFilt f * 40000)
    let dueDisc := fun (v : State) =>
      if (v.fType f == 1 || v.fType f == 2) && (v.showsDemand f false != v.showsDemand f true) &&
          !(v.flagBit F.MTS_FUNC_DISC f) then
        some (max (v.levelSince f false) (v.levelSince f true) + v.fDiscMs f * 10 ^ 9)
      else none
    let own := fun (g : Fin 8) => 2 * g.val + (if b then 1 else 0)
    let other := fun (g : Fin 8) => 2 * g.val + (if b then 0 else 1)
    let stuck := fun (g : Fin 8) => s.fTest g = true ∧ s.mts.pins.getLsbD (own g) = true
    let crossed := fun (g : Fin 8) => s.fTest g = true ∧ s.mts.atStart.getLsbD (other g) = true ∧
      s.mts.pins.getLsbD (other g) = false
    { u with mts := s.mts } = s ∧ u.mts.pins = s.mts.pins ∧
    u.mts.heldA = (s.mts.heldA && !overA) ∧ u.mts.heldB = (s.mts.heldB && !overB) ∧
    u.mts.evald.getLsbD i = (if again i then s.mts.pins else s.mts.evald).getLsbD i ∧
    (∃ t, exec (.safeInChange i high) s = .next t ∧ t.mts.pins.getLsbD i = high ∧
      t.mts.evald.getLsbD i = (if u.heldInput i then u.mts.evald.getLsbD i else high) ∧
      (∀ j : Fin 16, j ≠ i → t.mts.pins.getLsbD j = s.mts.pins.getLsbD j ∧
        t.mts.evald.getLsbD j = u.mts.evald.getLsbD j) ∧ { t with mts := s.mts } = s) ∧
    (∀ due ∈ [dueDemand, dueDisc],
      (u.holdEnd = none → s.mtsAt due = (due u).map u.reach) ∧
      ∀ e, u.holdEnd = some e →
        (∀ t, due u = some t → t < e → s.mtsAt due = some (u.reach t)) ∧
        ((∀ t, due u = some t → e ≤ t) → s.mtsAt due = (u.reach e).mtsAt due)) ∧
    (u.holdEnd = none ↔ (u.mts.heldA = false ∨ u.mts.tpaLow = true) ∧ (u.mts.heldB = false ∨ u.mts.tpbLow = true)) ∧
    (∀ e, u.holdEnd = some e →
      (u.mts.heldA = true ∧ u.mts.tpaLow = false ∧ e = u.mts.tpaEnd + 10 ^ 8 ∨
        u.mts.heldB = true ∧ u.mts.tpbLow = false ∧ e = u.mts.tpbEnd + 10 ^ 8) ∧
      (u.mts.heldA = true → u.mts.tpaLow = false → e ≤ u.mts.tpaEnd + 10 ^ 8) ∧
      (u.mts.heldB = true → u.mts.tpbLow = false → e ≤ u.mts.tpbEnd + 10 ^ 8)) ∧
    (s.mtsAt dueDemand = none → exec (.demand f) s = .next u) ∧
    (∀ w, s.mtsAt dueDemand = some w → ∃ t, exec (.demand f) s = .next t ∧
      t.now = w.now ∧ t.flagBit F.MTS_FUNC_DEMAND f = true ∧
      demanded f (s.fAct f) s t ∧ ∀ a, t.rd8 a = s.rd8 a) ∧
    (s.mtsAt dueDisc = none → exec (.discrepancy f) s = .next u) ∧
    (∀ w, s.mtsAt dueDisc = some w → ∃ t, exec (.discrepancy f) s = .next t ∧
      t.flagBit F.MTS_FUNC_DISC f = true ∧ t.now = w.now ∧
      t.flagBit F.MTS_FUNC_DEMAND f = true ∧ demanded f (s.fAct f) s t ∧
      t.flag (lineStat 0x27) = true) ∧
    (s.pulsesRun = false ∨ low = true ∨ (b = true ∧ (s.mts.tpaAt = none ∨ ∃ at_, s.mts.tpaAt = some at_ ∧
        at_ + s.tpPerMs * 10 ^ 9 / 2 ≤ s.mts.tpbAt.getD 0)) →
      exec (.testPulseStart b) s = .next u) ∧
    (s.pulsesRun = true → low = false → b = false → ∃ t, exec (.testPulseStart b) s = .next t ∧
      t.mts.tpaLow = true ∧ t.mts.tpbLow = false ∧ t.mts.heldA = true ∧ t.mts.tpaAt = some t.now ∧
      t.mts.atStart = s.mts.pins ∧
      (∀ at_, s.mts.tpaAt = some at_ → t.now = max s.now (at_ + s.tpPerMs * 10 ^ 9)) ∧
      { t with mts := s.mts, now := s.now } = s) ∧
    (∀ at_, s.pulsesRun = true → low = false → b = true → s.mts.tpaAt = some at_ →
      s.mts.tpbAt.getD 0 < at_ + s.tpPerMs * 10 ^ 9 / 2 →
      ∃ t, exec (.testPulseStart b) s = .next t ∧ t.mts.tpbLow = true ∧ t.mts.tpaLow = false ∧
        t.mts.heldB = true ∧ t.mts.atStart = s.mts.pins ∧
        t.now = max s.now (at_ + s.tpPerMs * 10 ^ 9 / 2) ∧
        { t with mts := s.mts, now := s.now } = s) ∧
    ((if b then s.mts.tpbLow else s.mts.tpaLow) = false → exec (.testPulseEnd b) s = .next s) ∧
    ((if b then s.mts.tpbLow else s.mts.tpaLow) = true → ∃ t, exec (.testPulseEnd b) s = .next t ∧
      (if b then t.mts.tpbLow else t.mts.tpaLow) = false ∧
      (if b then t.mts.tpbEnd else t.mts.tpaEnd) = t.now ∧
      t.mts.heldA = s.mts.heldA ∧ t.mts.heldB = s.mts.heldB ∧
      t.now = max s.now ((if b then s.mts.tpbAt else s.mts.tpaAt).getD 0 + s.tpWUs * 10 ^ 6) ∧
      (stuck f ∨ crossed f → t.flagBit F.MTS_FUNC_TPFAIL f = true ∧ f.val ∈ t.mts.demands ∧
        t.flagBit F.MTS_FUNC_DEMAND f = true ∧ t.flag (lineStat 0x28) = true) ∧
      (¬stuck f → ¬crossed f → t.flagBit F.MTS_FUNC_TPFAIL f = s.flagBit F.MTS_FUNC_TPFAIL f ∧
        t.flagBit F.MTS_FUNC_DEMAND f = s.flagBit F.MTS_FUNC_DEMAND f) ∧
      ((∀ g, ¬stuck g ∧ ¬crossed g) → { t with mts := s.mts, now := s.now } = s ∧
        t.mts.demands = s.mts.demands)) ∧
    (∃ t, exec .trip s = .next t ∧ demanded 0x11 (s.param 153) s t ∧ ∀ a, t.rd8 a = s.rd8 a) ∧
    (∃ t, exec (.readbackFault output) s = .next t ∧ demanded 0x13 0xF1 s t) ∧
    (∃ t, exec .mantisInternalFault s = .next t ∧ demanded 0x13 0xF1 s t) ∧
    (s.mod.power = .off → exec (.unlock key) s = .next s ∧ exec (.mtsConfirm v) s = .next s) ∧
    (s.mod.power ≠ .off →
      (s.quiet = false ∨ key ≠ 0x5AFE → rejected (.unlock key)) ∧
      (s.quiet = true → key = 0x5AFE → ∃ t, exec (.unlock key) s = .next t ∧ t.locked = false ∧
        t.flag F.MTS_STAT_CONFIRMED = false ∧ t.mts.nvConf = none ∧ demanded 0x14 0xF1 s t) ∧
      (s.quiet = false ∨ s.locked = true ∨ s.paramOk = false → rejected (.mtsConfirm v)) ∧
      (s.quiet = true → s.locked = false → s.paramOk = true →
        (v = s.mtsChk → ∃ t, exec (.mtsConfirm v) s = .next t ∧ t.locked = true ∧
          t.flag F.MTS_STAT_CONFIRMED = true ∧ t.mts = { s.mts with nvBlock := s.paramWords, nvConf := some v } ∧
          t.mod.rwl = t.rwlNow ∧ regsKept [F.MTS_STAT_LOCK.addr] s t) ∧
        (v ≠ s.mtsChk → ∃ t, exec (.mtsConfirm v) s = .next t ∧ t.flag F.MTS_STAT_CONF_ERR = true ∧
          t.locked = false ∧ onlyRegs [F.MTS_STAT_CONF_ERR.addr] s t)))

/-- R355: every step keeps the agreement of the test pulses with their outputs: a channel is held while its
output is low, the pulse of a low output has begun, and never are both outputs low. -/
def Obligations.StepKeepsTestPulses : Prop :=
  ∀ s t : State, s.pulsesAgree = true → step s = .next t → t.pulsesAgree = true

/-- R359: a RESET is decided at once, or, while a tested function holds a finding, after a pulse of
each channel; accepted, it clears the demands, the findings, block-all and the trips, which stay in
factory test mode; else it is told
and clears nothing. A reset function asks for one after both its channels have risen together and
stayed high. Here no channel is held; where one is, the reset function acts on the levels from the end of its
hold on, and so does the decision of a RESET that it asks for. -/
def Obligations.MantisReset : Prop :=
  (∀ (f : Fin 8) (s w : State),
    let due := fun (v : State) => match v.fType f == 3, (v.func f).riseA, (v.func f).riseB with
      | true, some a, some b =>
        if max a b - min a b ≤ v.fDiscMs f * 10 ^ 9 then some (max a b + 5 * 10 ^ 10) else none
      | _, _, _ => none
    s.mtsAt due = some w → ∃ t, exec (.resetFunction f) s = .next t ∧ t.now = w.now ∧
      (t.func f).riseA = none ∧ (t.func f).riseB = none ∧
      ((s.param 2).testBit 1 = true → s.mts.reset = false →
        (List.range 8).all (fun g => !(s.fTest g && (s.flagBit F.MTS_FUNC_DISC g || s.flagBit F.MTS_FUNC_TPFAIL g))) →
        t.mts.reset = false ∧ (w.resetOk = true → t.mts.demands = [] ∧ t.flag F.MTS_STAT_BLOCK_ALL = false) ∧
          (w.resetOk = false → t.flag (lineStat 0x26) = true))) ∧
  ∀ (f : Fin 8) (s : State),
    let finding := (List.range 8).any (fun g =>
      s.fTest g && (s.flagBit F.MTS_FUNC_DISC g || s.flagBit F.MTS_FUNC_TPFAIL g))
    let decided := fun (u t : State) => t.mts.reset = false ∧ t.flag F.MTS_CMD_RESET = false ∧
      (u.resetOk = true → t.mts.demands = [] ∧ t.reg R.MTS_FUNC = 0 ∧
        t.flag F.MTS_STAT_BLOCK_ALL = false ∧
        t.fld F.MTS_STAT_TRIP = (if u.flag F.MTS_STAT_FTM then u.fld F.MTS_STAT_TRIP else 0)) ∧
      (u.resetOk = false → t.flag (lineStat 0x26) = true ∧ (∀ d, d ∈ u.mts.demands → d ∈ t.mts.demands) ∧
        (u.flag F.MTS_STAT_BLOCK_ALL = true → t.flag F.MTS_STAT_BLOCK_ALL = true))
    s.mts.heldA = false → s.mts.heldB = false →
    ((s.param 2).testBit 0 = false → ∃ t, exec .mtsReset s = .next t ∧ t.flag (lineStat 0x00) = true ∧
      t.untold s = s ∧ regsTold [] s t) ∧
    ((s.param 2).testBit 0 = true →
      (s.mts.reset = true → exec .mtsReset s = .next s) ∧
      (s.mts.reset = false → finding = true → ∃ t, exec .mtsReset s = .next t ∧
        t.mts = { s.mts with reset := true, resetA := 0, resetB := 0, resetSpoiled := false } ∧
        t.flag F.MTS_CMD_RESET = true ∧ regsKept [F.MTS_CMD_RESET.addr] s t) ∧
      (s.mts.reset = false → finding = false → ∃ t, exec .mtsReset s = .next t ∧ decided s t)) ∧
    (s.mts.reset = false ∨ s.mts.resetA ≠ 2 ∨ s.mts.resetB ≠ 2 → exec .resetDecision s = .next s) ∧
    (s.mts.reset = true → s.mts.resetA = 2 → s.mts.resetB = 2 → ∃ t, exec .resetDecision s = .next t ∧
      t.now = max s.now (s.mts.resetEnd + 10 ^ 8) ∧ decided (s.reach (s.mts.resetEnd + 10 ^ 8)) t) ∧
    (s.fType f ≠ 3 ∨ (s.func f).riseA = none ∨ (s.func f).riseB = none →
      exec (.resetFunction f) s = .next s) ∧
    (∀ a b, s.fType f = 3 → (s.func f).riseA = some a → (s.func f).riseB = some b →
      (s.fDiscMs f * 10 ^ 9 < max a b - min a b → exec (.resetFunction f) s = .next s) ∧
      (max a b - min a b ≤ s.fDiscMs f * 10 ^ 9 → ∃ t, exec (.resetFunction f) s = .next t ∧
        t.now = max s.now (max a b + 5 * 10 ^ 10) ∧ (t.func f).riseA = none ∧ (t.func f).riseB = none ∧
        ((s.param 2).testBit 1 = false ∨ s.mts.reset = true → t.regs = s.regs) ∧
        ((s.param 2).testBit 1 = true → s.mts.reset = false → finding = true → t.mts.reset = true) ∧
        ((s.param 2).testBit 1 = true → s.mts.reset = false → finding = false →
          decided (s.reach (max a b + 5 * 10 ^ 10)) t)))

/-- R362, R363, R365, R366, R376: BS runs from Blocked or Servicing when its image checks, is
supervised by its writes of MTS_BSDEM, one a window with true complements, and is OK after two good
windows; stopped, it opens the trip outputs, and each failure is told. A message with the next SEQ within the
window is accepted while in step, one that fails a check is counted, and a copy of one taken from the other
port is not; without one in SM_WD_MS the safety messages are out of step; a status message counts
its SEQ. MTS_INJ is rejected outside factory test mode. Only in it is a command refused (by name):
MTS_INJ, and a whole-word REGISTER_WRITE of it, whose effect there the spec does not give. -/
def Obligations.SafetyCoreAndMessages : Prop :=
  (∀ (v : Word) (port : Bool) (slot : Fin 8) (s : State),
    let a := rxSlot port slot
    let l := ((s.slotFrame a).drop 14).take 16
    let q := wordAt l 4
    let takes := s.smRuns && s.slotFlag a
    let rejected := fun (c : Instr) => ∃ t, exec c s = .next t ∧ t.flag (lineStat 0x00) = true ∧
      t.untold s = s ∧ regsTold [] s t
    let bad := (bitsOf v 0 8 + bitsOf v 8 8 != 255) || (bitsOf v 16 8 + bitsOf v 24 8 != 255)
    let up := (s.core 8).run && !(s.core 8).nested
    let wd := s.mts.bsWrites != 1 || s.mts.bsBadCompl
    let diverge := if s.mts.bsWrites = 0 ∨ bitsOf s.mts.bsDem 0 8 = s.fld F.MTS_FUNC_DEMAND then 0
      else s.mts.bsDiverge + 1
    (s.quiet = false → rejected .bsRun ∧ rejected .bsStop) ∧
    (s.quiet = true → s.flag F.MTS_BS_RUN = true → exec .bsRun s = .next s) ∧
    (s.quiet = true → s.flag F.MTS_BS_RUN = false → ∃ t, exec .bsRun s = .next t ∧
      t.flag F.MTS_BS_RUN = true ∧ t.mts.bsWinAt = s.now ∧ t.mts.bsGood = 0 ∧ t.mts.bsWrites = 0 ∧
      (crc32 s.bsBytes = BitVec.ofNat 32 (s.param32 160) → t.core 8 = { run := true } ∧
        t.mts.bsSup = true ∧ t.flag F.MTS_BS_IMG_ERR = false) ∧
      (crc32 s.bsBytes ≠ BitVec.ofNat 32 (s.param32 160) → t.flag F.MTS_BS_IMG_ERR = true ∧
        t.mts.bsSup = false ∧ (t.core 8).run = (s.core 8).run ∧ demanded 0x12 0xF1 s t ∧
        t.flag (lineStat 0x2A) = true)) ∧
    (s.quiet = true → ∃ t, exec .bsStop s = .next t ∧ t.flag F.MTS_BS_RUN = false ∧
      t.flag F.MTS_STAT_BS_OK = false ∧ t.fld F.MTS_STAT_TRIP = 15 ∧
      t.core 8 = { s.core 8 with run := false } ∧
      regsKept [F.MTS_BS_RUN.addr, F.MTS_STAT_BS_OK.addr] s t) ∧
    (up = false → exec (.bsdemWrite v) s = .next s) ∧
    (up = true → ∃ t, exec (.bsdemWrite v) s = .next t ∧ { t with mts := s.mts } = s ∧
      t.mts = { s.mts with bsWrites := s.mts.bsWrites + 1, bsBadCompl := s.mts.bsBadCompl || bad
                           bsDem := v }) ∧
    (s.mts.bsSup = false → exec .bsWindow s = .next s) ∧
    (s.mts.bsSup = true → ∃ t, exec .bsWindow s = .next t ∧ t.now = max s.now (s.mts.bsWinAt + 10 ^ 9) ∧
      t.mts.bsWinAt = t.now ∧ t.mts.bsWrites = 0 ∧ t.mts.bsBadCompl = false ∧ t.mts.bsDiverge = diverge ∧
      t.mts.bsGood = (if wd then 0 else min 2 (s.mts.bsGood + 1)) ∧
      t.flag F.MTS_BS_WD_FAIL = (s.flag F.MTS_BS_WD_FAIL || wd) ∧
      t.flag F.MTS_BS_DIVERGE = (s.flag F.MTS_BS_DIVERGE || decide (2 ≤ diverge)) ∧
      ((t.flag F.MTS_BS_WD_FAIL = true ∧ s.flag F.MTS_BS_WD_FAIL = false) ∨
        (t.flag F.MTS_BS_DIVERGE = true ∧ s.flag F.MTS_BS_DIVERGE = false) →
        t.flag F.MTS_STAT_BS_OK = false ∧ demanded 0x12 0xF1 s t ∧ t.flag (lineStat 0x2A) = true) ∧
      (t.flag F.MTS_BS_WD_FAIL = false → t.flag F.MTS_BS_DIVERGE = false → 1 ≤ s.mts.bsGood →
        s.flag F.MTS_BS_RUN = true → t.flag F.MTS_STAT_BS_OK = true)) ∧
    (takes = false → exec (.safetyMsgRx port slot) s = .next s) ∧
    (takes = true → ∃ t, exec (.safetyMsgRx port slot) s = .next t ∧ t.slotFlag a = false ∧
      (smFormOk s l = false →
        t.fld F.MTS_SMSTAT_ERR = min 65535 (s.fld F.MTS_SMSTAT_ERR + 1) ∧
        t.fld F.MTS_SMSTAT_SMB = s.fld F.MTS_SMSTAT_SMB ∧ t.mts.smSeq = s.mts.smSeq) ∧
      (smFormOk s l = true → s.flag F.MTS_SMSTAT_SYNC = true →
        1 ≤ (q - s.mts.smSeq).toNat → (q - s.mts.smSeq).toNat ≤ s.smWin →
        t.mts.smSeq = q ∧ t.mts.smFrom = s.now ∧ t.fld F.MTS_SMSTAT_SMB = byteAt l 8) ∧
      (smFormOk s l = true → s.flag F.MTS_SMSTAT_SYNC = true →
        ((q - s.mts.smSeq).toNat = 0 ∨ s.smWin < (q - s.mts.smSeq).toNat) → t.mts.smSeq = s.mts.smSeq ∧
        t.fld F.MTS_SMSTAT_ERR = (if s.smCopy port l then s.fld F.MTS_SMSTAT_ERR
          else min 65535 (s.fld F.MTS_SMSTAT_ERR + 1))) ∧
      (smFormOk s l = true → s.flag F.MTS_SMSTAT_SYNC = false → s.mts.smPrev = none →
        t.mts.smPrev = some (q, s.now) ∧ t.regs = s.regs)) ∧
    (s.smRuns = false ∨ s.mts.smTold = true → exec .smTimeout s = .next s) ∧
    (s.smRuns = true → s.mts.smTold = false → ∃ t, exec .smTimeout s = .next t ∧
      t.now = max s.now (s.mts.smFrom + s.smWdMs * 10 ^ 9) ∧ t.fld F.MTS_SMSTAT_SMB = 0 ∧
      t.flag F.MTS_SMSTAT_SYNC = false ∧ t.flag F.MTS_SMSTAT_TIMEOUT = true ∧ t.mts.smTold = true ∧
      t.mts.smPrev = none ∧ t.flag (lineStat 0x29) = true) ∧
    (s.smRuns = false → exec .statusMsgSend s = .next s) ∧
    (s.smRuns = true → ∃ t, exec .statusMsgSend s = .next t ∧ t.mts.smSeqTx = s.mts.smSeqTx + 1 ∧
      { t with mts := s.mts } = s ∧
      ∀ p k, s.freeTx p = some k → t.slotFlag (txSlot p k) = true ∧
        ((t.slotFrame (txSlot p k)).drop 14).take 16 = statusMsg s) ∧
    (s.flag F.MTS_STAT_FTM = false → rejected (.mtsInj v))) ∧
  ∀ (c : Instr) (s : State),
    (∃ t, exec c s = .next t) ∨
    (exec c s = .refused .factoryInjection ∧ s.flag F.MTS_STAT_FTM = true ∧
      ((∃ v, c = .mtsInj v) ∨
        ∃ src off data, c = .registerWrite src off 0xF data ∧ off.toNat / 4 * 4 = R.MTS_INJ))

/-! ### Cicada (chapter 15) -/

/-- R371 to R379: a software report sets its line's status; the first is logged with its time, line,
detail and sweep, one whose status stands already is only counted, and the class of the line says what
follows. A reaction entry keeps its reserved class and, after the lock, its class. A clearing write of
a status clears what it names. A log read latches the whole entry. An injection is armed, or an armed one
given another target, where it may be, and else rejected. A report of class TRIP_MTS is demand source 0x10 of an ACTIVE
module; the fall of ERR_N and the trip are sources of the captures (Table 9.2). -/
def Obligations.CicadaRegisters : Prop :=
  ∀ (v : Word) (i : Fin 16) (hi : Bool) (s : State),
    let line := 0x38 + bitsOf v 0 3
    let cls := s.fld (lineClass line)
    let off := R.CCD_RCT + 4 * i
    let old := fun k => bitsOf (s.reg off) (8 * k) 8
    let new := fun k => bitsOf v (8 * k) 8
    let reserved := (List.range 4).any (fun k => decide (5 ≤ new k % 8))
    let changed := s.locked && (List.range 4).any (fun k => new k % 8 != old k % 8)
    let captures := fun (src : Nat) (t : State) => ∀ n : Fin 8,
      let c := fun (x : Fld) => x.up (0x10 * n)
      s.fld (c F.FFY_CAP_CTL_SRC) = src →
        (s.flag (c F.FFY_CAP_CTL_VALID) = false → t.flag (c F.FFY_CAP_CTL_VALID) = true ∧
          t.reg64 (R.FFY_CAP_LO + 0x10 * n) = BitVec.ofNat 64 s.ns) ∧
        (s.flag (c F.FFY_CAP_CTL_VALID) = true → t.flag (c F.FFY_CAP_CTL_OVR) = true ∧
          t.reg64 (R.FFY_CAP_LO + 0x10 * n) = s.reg64 (R.FFY_CAP_LO + 0x10 * n))
    let arms := v.getLsbD 3 || s.flag F.CCD_INJ_ARM
    (∃ t, exec (.ccdSwrep v) s = .next t ∧ t.flag (lineStat line) = true ∧ t.untold s = s ∧
      (∀ l, l < 64 → s.flag (lineStat l) = true → t.flag (lineStat l) = true) ∧
      (s.active = true → 2 ≤ cls → t.ccd.block = true) ∧
      (s.active = true → 3 ≤ cls → t.ccd.trip = true) ∧
      (1 ≤ cls → ∀ n, n < 8 → s.flagBit F.CCD_CTL_CORES n = true → (t.core n).ipend.getLsbD 2 = true) ∧
      (1 ≤ cls → s.flag (lineMask line) = false → t.flag F.CCD_SUM_ERR = true) ∧
      (s.flag F.CCD_SUM_ERR = false → t.flag F.CCD_SUM_ERR = true → captures 3 t) ∧
      (s.active = true → cls = 4 → demanded 0x10 (s.param 152) s t ∧
        (0x10 ∉ s.mts.demands → captures 4 t)) ∧
      (s.flag (lineStat line) = false → t.logAt (s.fld F.CCD_LOGHEAD_NEXT) =
        some { time := s.ns, line := line, detail := bitsOf v 8 22, sweep := s.sweep }) ∧
      (cls ≠ 4 ∨ s.active = false →
        (s.flag (lineStat line) = true → t.ccd.log = s.ccd.log ∧
          t.fld F.CCD_SUPP_VAL = min (2 ^ 32 - 1) (s.fld F.CCD_SUPP_VAL + 1)) ∧
        (s.flag (lineStat line) = false →
          (∀ k, k ≠ s.fld F.CCD_LOGHEAD_NEXT → t.logAt k = s.logAt k) ∧
          t.fld F.CCD_LOGHEAD_NEXT = (s.fld F.CCD_LOGHEAD_NEXT + 1) % 4096 ∧
          t.fld F.CCD_LOGTOT_VAL = min (2 ^ 32 - 1) (s.fld F.CCD_LOGTOT_VAL + 1)))) ∧
    (∃ t, exec (.rctWrite i v) s = .next t ∧ t.untold s = s ∧ regsTold [] s t ∧
      (∀ k, k < 4 → bitsOf (t.reg off) (8 * k) 8 =
        (if 5 ≤ new k % 8 then old k
         else if s.locked then old k % 8 + new k % 32 / 8 * 8 else new k % 32)) ∧
      (changed || (s.locked && reserved) → t.flag (lineStat 0x01) = true) ∧
      (s.locked = false → reserved = true → t.flag (lineStat 0x00) = true)) ∧
    (∃ t, exec (.statClear hi v) s = .next t ∧ t.untold s = s ∧ regsTold [] s t ∧
      (∀ l, l < 32 → t.flag (lineStat (l + if hi then 32 else 0)) =
        (s.flag (lineStat (l + if hi then 32 else 0)) && !(v.getLsbD l))) ∧
      (∀ l, l < 32 → t.flag (lineStat (l + if hi then 0 else 32)) =
        s.flag (lineStat (l + if hi then 0 else 32))) ∧
      t.flag F.CCD_SUM_ERR = t.anyErr ∧ t.flag F.CCD_SUM_TRIPCLASS = t.anyTrip) ∧
    (∃ t, exec .ccdLogRead s = .next t ∧ t.hst.rdata = t.reg R.CCD_LOG0 ∧
      { t with hst := s.hst, regs := s.regs } = s ∧
      regsKept [R.CCD_LOG0, R.CCD_LOG1, R.CCD_LOG2, R.CCD_LOG3] s t ∧
      (s.logAt (s.fld F.CCD_LIDX_INDEX) = none → t.flag F.CCD_LOG2_VALID = false) ∧
      ∀ e, s.logAt (s.fld F.CCD_LIDX_INDEX) = some e → t.flag F.CCD_LOG2_VALID = true ∧
        t.reg R.CCD_LOG0 = BitVec.ofNat 32 e.time ∧ t.reg R.CCD_LOG1 = BitVec.ofNat 32 (e.time / 2 ^ 32) ∧
        t.fld F.CCD_LOG2_DETAIL = e.detail % 2 ^ 22 ∧ t.fld F.CCD_LOG2_LINE = e.line % 64 ∧
        t.reg R.CCD_LOG3 = e.sweep) ∧
    (bitsOf v 0 3 = 7 → exec (.ccdInjArm v) s = .next s) ∧
    (bitsOf v 0 3 ≠ 7 → arms = true → injAllowed s (bitsOf v 0 3) (bitsOf v 4 3) = false →
      ∃ t, exec (.ccdInjArm v) s = .next t ∧ t.flag (lineStat 0x00) = true ∧ t.untold s = s ∧
        regsTold [] s t ∧ t.reg R.CCD_INJ = s.reg R.CCD_INJ) ∧
    (bitsOf v 0 3 ≠ 7 → arms = false ∨ injAllowed s (bitsOf v 0 3) (bitsOf v 4 3) = true →
      ∃ t, exec (.ccdInjArm v) s = .next t ∧ t.fld F.CCD_INJ_TARGET = bitsOf v 0 3 ∧
        t.fld F.CCD_INJ_BANK = bitsOf v 4 3 ∧ (arms = true → t.flag F.CCD_INJ_ARM = true) ∧
        onlyRegs [R.CCD_INJ] s t)

/-! ### The module (chapter 16) -/

/-- R381 to R388, R399: power-good, once PRESENT_N has been low for 50 ms and VIN12 at 10.5 V for 10 ms,
begins start-up at time 0 with Firefly time from the backup counter (from 0 when its latch has tripped), and of
the memory only the retained part; power-fail, once PRESENT_N has been high for 10 us or VIN12 below 10.0 V for
20 us, leaves the retained memory, the boot
flash and Mantis's store, and every register at its reset value; REBOOT does the same but keeps Mantis
and BS, with the PWM outputs at high impedance while it holds block-all with PWM_HIZ, is rejected on a module that
switches, and is nothing without power. Factory test mode is entered only before READY, with the trip outputs open.
Excursions of the supply, the temperature and the
backup cell are told once, one of the backup cell only from 8 h after power-good on. -/
def Obligations.ModulePower : Prop :=
  ∀ (low early : Bool) (mv ma vbak : Fin 65536) (q : BitVec 12) (pct : Fin 101) (s : State),
    let hot := decide (4 * (s.fld F.MOD_TEMP_WARN_C : Int) < q.toInt)
    let out := decide (mv.val < 10800) || decide (13200 < mv.val)
    let fails : Option Nat := match s.mod.presentLow, s.mod.vinLow with
      | true, v => v.map (· + 2 * 10 ^ 7)
      | false, none => some (s.mod.presentAt + 10 ^ 7)
      | false, some v => some (min (s.mod.presentAt + 10 ^ 7) (v + 2 * 10 ^ 7))
    let highFrom := if mv.val < 10500 then none else some (s.mod.vinFrom.getD s.now)
    let lowFrom := if 10000 ≤ mv.val then none else some (s.mod.vinLow.getD s.now)
    let retained := fun (t : State) =>
      (∀ a, a < 0x08000000 → t.rd8 a = 0) ∧ (∀ a, 0x08000000 ≤ a → t.rd8 a = s.rd8 a) ∧
      t.flash = s.flash ∧ t.mod.fence = true ∧ t.mod.latch = s.mod.latch ∧
      t.mod.recPref = s.mod.recPref ∧ t.mod.recSrc = s.mod.recSrc ∧ t.mod.triesA = s.mod.triesA ∧
      t.mod.triesB = s.mod.triesB
    (s.mod.presentLow = low → exec (.presentChange low) s = .next s) ∧
    (s.mod.presentLow ≠ low → ∃ t, exec (.presentChange low) s = .next t ∧
      t.mod = { s.mod with presentLow := low, presentAt := s.now } ∧
      t.modStat.getLsbD F.MOD_STAT_PRESENT.lo = low ∧ { t with mod := s.mod } = s) ∧
    (s.mod.power ≠ .off ∨ s.mod.presentLow = false ∨ s.mod.vinFrom = none → exec .powerGood s = .next s) ∧
    (∀ v, s.mod.power = .off → s.mod.presentLow = true → s.mod.vinFrom = some v →
      let on := max s.now (max (s.mod.presentAt + 50 * 10 ^ 9) (v + 10 * 10 ^ 9))
      ∃ t, exec .powerGood s = .next t ∧
      t.mod.power = .starting ∧ t.now = 0 ∧ retained t ∧ t.mod.readyPin = some false ∧
      t.mts.nvBlock = s.mts.nvBlock ∧ t.mts.nvConf = s.mts.nvConf ∧
      t.ffy.offset = (if s.mod.latch then 0 else ((s.mod.backup + (on - s.mod.failAt) / 1000 : Nat) : Int)) ∧
      t.mod.outage = (on - s.mod.failAt) / 1000) ∧
    (s.mod.power = .off ∨ (s.mod.presentLow = true ∧ s.mod.vinLow = none) → exec .powerFail s = .next s) ∧
    (∀ at_, s.mod.power ≠ .off → fails = some at_ → ∃ t, exec .powerFail s = .next t ∧ t.mod.power = .off ∧
      retained t ∧ t.mod.closing = true ∧ t.mod.readyPin = none ∧ t.now = max s.now at_ ∧
      t.mod.backup = ({ s with now := t.now } : State).ns ∧ t.mod.failAt = t.now ∧ t.mts.nvBlock = s.mts.nvBlock ∧
      t.mts.nvConf = s.mts.nvConf ∧ (∀ n, t.core n = {}) ∧ t.pending = s.pending ∧
      (∀ a, a ≠ F.TWN_STAT_ACT_IN.addr → t.reg a = regReset a)) ∧
    (s.mod.power = .off → exec .reboot s = .next s) ∧
    (s.rebootOk = false → s.mod.power ≠ .off → ∃ t, exec .reboot s = .next t ∧ t.flag (lineStat 0x00) = true ∧
      t.untold s = s ∧ regsTold [] s t) ∧
    (s.rebootOk = true → s.mod.power ≠ .off → ∃ t, exec .reboot s = .next t ∧
      t.mod.power = .starting ∧ retained t ∧ t.mod.closing = true ∧ t.mod.readyPin = some false ∧ t.mts = s.mts ∧
      t.core coreBs = s.core coreBs ∧ (∀ n, n ≠ coreBs → t.core n = {}) ∧ t.now = s.now ∧ t.ffyPs = s.ffyPs ∧
      (∀ k, k < 12 → (t.pwmCh k).running = false ∧
        (t.pwmCh k).hizMts = (s.flag F.MTS_STAT_BLOCK_ALL && s.pwmHiz)) ∧
      t.flag F.MOD_STAT_BOOTED = false ∧
      (s.canon = true → t.flag F.MTS_STAT_LOCK = s.flag F.MTS_STAT_LOCK)) ∧
    (s.mod.power ≠ .starting → exec .factoryTestMode s = .next s) ∧
    (s.mod.power = .starting → ∃ t, exec .factoryTestMode s = .next t ∧ t.flag F.MTS_STAT_FTM = true ∧
      t.fld F.MTS_STAT_TRIP = 15 ∧ onlyRegs [F.MTS_STAT_FTM.addr] s t) ∧
    (s.mod.power ≠ .off → exec .latchTrip s = .next s) ∧
    (s.mod.power = .off → ∃ t, exec .latchTrip s = .next t ∧ t.mod = { s.mod with latch := true } ∧
      { t with mod := s.mod } = s) ∧
    (s.mod.power = .off → ∃ t, exec (.vinExcursion mv ma) s = .next t ∧ { t with mod := s.mod } = s ∧
      t.mod = { s.mod with vinFrom := highFrom, vinLow := lowFrom }) ∧
    (s.mod.power ≠ .off → ∃ t, exec (.vinExcursion mv ma) s = .next t ∧ t.fld F.MOD_PWR_VIN_MV = mv.val ∧
      t.fld F.MOD_PWR_IIN_MA = ma.val ∧
      t.mod = { s.mod with vinFrom := highFrom
                           vinLow := lowFrom
                           vinOut := (s.mod.vinOut || decide (10000 ≤ mv.val)) && out } ∧
      (out = true → 10000 ≤ mv.val → s.mod.vinOut = false → t.flag F.MOD_STAT_PWR_WARN = true ∧
        t.flag (lineStat 0x30) = true) ∧
      (out = false ∨ mv.val < 10000 ∨ s.mod.vinOut = true → regsKept [F.MOD_PWR_VIN_MV.addr] s t)) ∧
    (∃ t, exec (.tempExcursion q) s = .next t ∧ t.fld F.MOD_TEMP_TJ_MAX = q.toNat ∧
      t.mod = { s.mod with tempOver := hot } ∧
      (hot = true → s.mod.tempOver = false → t.flag F.MOD_STAT_TEMP_WARN = true ∧
        t.flag (lineStat 0x2F) = true) ∧
      (hot = false ∨ s.mod.tempOver = true → regsKept [F.MOD_TEMP_TJ_MAX.addr] s t)) ∧
    (let charging := early = true ∧ s.now < 288 * 10 ^ 14
      ∃ t, exec (.bakLow pct (vbak, early)) s = .next t ∧ t.fld F.MOD_BAK_CHG = pct.val ∧
      t.fld F.MOD_BAK_VBAK_MV = vbak.val ∧
      (charging → onlyRegs [F.MOD_BAK_CHG.addr] s t) ∧
      (¬charging → t.mod = { s.mod with bakLow := decide (pct.val < 95) } ∧
        (pct.val < 95 → 288 * 10 ^ 14 ≤ t.now) ∧
        (pct.val < 95 → s.mod.bakLow = false → t.flag F.MOD_STAT_BAK_WARN = true ∧
          t.flag (lineStat 0x31) = true) ∧
        (95 ≤ pct.val ∨ s.mod.bakLow = true → regsKept [F.MOD_BAK_CHG.addr] s t)))

/-- R300, R386, R388, R389, R391 to R395: start-up ends in READY and Blocked with Hive's descriptors and
flags cleared and every gain lane marked (R139), once every bank has been tested, opens the fence, and keeps the retained memory when it is valid, else zeroes it; a slot whose load passes its checks is placed at
address 0 and started on B0; one that fails is told and passes the turn to the slot left, whose load begins with
one more attempt counted where it is usable, and with none left HOST_GO is awaited; HOST_GO boots a header in memory that
passes and is rejected once an image has been booted; CONFIRM clears the attempts, and without it the timeout is told. A flash command is rejected
with its code or runs to its end: an erased sector reads 0xFF, a programmed one its source. -/
def Obligations.ModuleBoot : Prop :=
  ∀ (bank : Fin 8) (failed vf erase : Bool) (s : State),
    let torn := s.ecc.ue.any (fun w => decide (retBase ≤ w * 8))
    let valid := !s.mod.latch && s.mod.closing && !torn
    let h := s.rdBytes 0 64
    let n := hdrLoad h
    let fits := hdrValid h && !(s.poisoned 0 (64 + n)) && hdrFlags h == 0 && s.hwFits h &&
      crc32 (s.rdBytes 0x40 n) == BitVec.ofNat 32 (hdrN h 32 4)
    let cmd := if erase then Instr.flashErase else .flashProg
    let started := fun (t : State) (h : List Byte) => t.flag F.MOD_STAT_BOOTED = true ∧
      t.fld F.MOD_IMG_IMG_VER = hdrN h 4 2 ∧ t.reg R.MOD_TAG = BitVec.ofNat 32 (hdrN h 24 4) ∧
      t.mod.slots = [] ∧ t.mod.waitHost = false ∧ t.mod.confirmFrom = some s.now ∧
      t.flagBit F.BTL_CTL_RUN 0 = true ∧
      (s.flagBit F.BTL_CTL_RUN 0 = false → (t.core 0).pc = t.boot 0 ∧
        t.reg R.BTL_BOOT = BitVec.ofNat 32 (hdrEntry h) ∧ ((s.core 0).sb = [] → (t.core 0).run = true) ∧
        ((s.core 0).sb ≠ [] → (t.core 0).startDue = true))
    (s.flagBit F.GCR_BANK_BANK_BUSY bank = false → exec (.bankTestDone bank failed) s = .next s) ∧
    (s.flagBit F.GCR_BANK_BANK_BUSY bank = true → ∃ t, exec (.bankTestDone bank failed) s = .next t ∧
      t.flagBit F.GCR_BANK_BANK_BUSY bank = false ∧ t.flagBit F.GCR_BANK_BANK_FAIL bank = failed ∧
      (∀ b : Fin 8, b ≠ bank →
        t.flagBit F.GCR_BANK_BANK_BUSY b = s.flagBit F.GCR_BANK_BANK_BUSY b ∧
        t.flagBit F.GCR_BANK_BANK_FAIL b = s.flagBit F.GCR_BANK_BANK_FAIL b) ∧
      onlyRegs [F.GCR_BANK_BANK_BUSY.addr, F.MTH_STAT_BANK_FAIL.addr] s t) ∧
    (s.mod.power ≠ .starting ∨ s.fld F.GCR_BANK_BANK_BUSY ≠ 0 → exec .ready s = .next s) ∧
    (s.mod.power = .starting → s.fld F.GCR_BANK_BANK_BUSY = 0 → ∃ t, exec .ready s = .next t ∧ t.mod.power = .ready ∧
      t.flag F.MOD_STAT_READY = true ∧ t.mod.readyPin = some true ∧ t.opState = stBlocked ∧
      t.role = (if s.twinOn then roleNone else roleActive) ∧ t.mod.fence = false ∧
      t.flag F.MOD_STAT_RETAIN_VALID = valid ∧ t.flag F.GCR_BANK_RET_FAIL = torn ∧ (∀ a, a < 0x08000000 → t.rd8 a = (if 0x02000000 ≤ a ∧ a < 0x03000000 then 0 else s.rd8 a)) ∧
      t.hive.used = [] ∧ t.hrn.gains = [] ∧ t.flag F.HIV_CTL_READY = true ∧ t.mts.bsLoaded = true ∧
      (∀ a, 0x08000000 ≤ a → t.rd8 a = (if valid then s.rd8 a else 0)) ∧
      t.flag F.MOD_STAT_TIME_KEPT = !s.mod.latch ∧
      (s.flagBit F.GCR_BANK_BANK_FAIL 0 = true → t.fld F.MOD_COMPAT_CODE = 6)) ∧
    (s.mod.slots = [] → exec .imageLoadDone s = .next s) ∧
    (∀ k r d, s.mod.slots = k :: r → k < 2 →
      let hd := s.flashBytes (slotBase k) 64
      (∀ m r', s.payload k hd = none → r = m :: r' → m < 2 →
        let hm := s.flashBytes (slotBase m) 64
        ∃ t, exec .imageLoadDone s = .next t ∧ t.flag (lineStat 0x32) = true ∧
          t.flag F.MOD_STAT_BOOTED = s.flag F.MOD_STAT_BOOTED ∧
          (hdrValid hm = true → s.hwFits hm = true → s.tries m ≠ 3 → t.mod.slots = m :: r' ∧
            t.tries m = s.tries m + 1 ∧ t.tries (1 - m) = s.tries (1 - m) ∧ t.mod.waitHost = s.mod.waitHost ∧
            t.fld F.MOD_COMPAT_CODE = 2 ∧ t.fld F.MOD_COMPAT_SLOT = k) ∧
          (r' = [] → hdrValid hm = false ∨ s.hwFits hm = false ∨ s.tries m = 3 → t.mod.slots = [] ∧
            t.mod.waitHost = true ∧ t.fld F.MOD_COMPAT_CODE = 5)) ∧
      (s.payload k hd = some d → ∃ t, exec .imageLoadDone s = .next t ∧ started t hd ∧
        t.fld F.MOD_STAT_BOOT_SLOT = k ∧ t.flag F.MOD_STAT_BOOT_SRC = false ∧
        (∀ i, i < 64 → s.bankOpen i = true → t.rd8 i = hd.getD i 0) ∧
        ∀ i, i < d.length → s.bankOpen (0x40 + i) = true → t.rd8 (0x40 + i) = d.getD i 0) ∧
      (s.payload k hd = none → r = [] → ∃ t, exec .imageLoadDone s = .next t ∧
        t.fld F.MOD_COMPAT_CODE = 5 ∧ t.mod.waitHost = true ∧ t.mod.slots = [] ∧
        t.flag F.MOD_STAT_BOOTED = s.flag F.MOD_STAT_BOOTED ∧
        let loaded := (s.unpack k hd).1.take (hdrLoad hd)
        ∀ a, t.rd8 a = if 0x40 ≤ a ∧ a < 0x40 + loaded.length ∧ s.bankOpen a = true then
          loaded.getD (a - 0x40) 0 else s.rd8 a)) ∧
    (s.mod.power ≠ .ready → exec .hostGo s = .next s) ∧
    (s.flag F.MOD_STAT_BOOTED = true → s.mod.power = .ready → ∃ t, exec .hostGo s = .next t ∧
      t.flag (lineStat 0x00) = true ∧ t.untold s = s ∧ regsTold [] s t) ∧
    (s.flag F.MOD_STAT_BOOTED = false → s.mod.power = .ready →
      (fits = true → ∃ t, exec .hostGo s = .next t ∧ started t h ∧
        t.flag F.MOD_STAT_BOOT_SRC = true ∧ ∀ a, t.rd8 a = s.rd8 a) ∧
      (fits = false → ∃ t, exec .hostGo s = .next t ∧ t.fld F.MOD_COMPAT_CODE = 0xA ∧
        t.flag F.MOD_STAT_BOOTED = false ∧ ∀ a, t.rd8 a = s.rd8 a)) ∧
    (s.flag F.MOD_STAT_BOOTED = false → exec .confirm s = .next s) ∧
    (s.flag F.MOD_STAT_BOOTED = true → ∃ t, exec .confirm s = .next t ∧ t.mod.confirmFrom = none ∧
      (s.flag F.MOD_STAT_BOOT_SRC = false →
        (s.fld F.MOD_STAT_BOOT_SLOT = 0 → t.mod.triesA = 0 ∧ t.fld F.MOD_BOOT_TRIES_A = 0) ∧
        (s.fld F.MOD_STAT_BOOT_SLOT = 1 → t.mod.triesB = 0 ∧ t.fld F.MOD_BOOT_TRIES_B = 0))) ∧
    (s.mod.confirmFrom = none → exec .confirmTimeout s = .next s) ∧
    (∀ at_, s.mod.confirmFrom = some at_ → ∃ t, exec .confirmTimeout s = .next t ∧
      t.now = max s.now (at_ + max 1 (s.fld F.MOD_BOOT_CONF_S) * 10 ^ 12) ∧
      t.mod.confirmFrom = none ∧ t.fld F.MOD_COMPAT_CODE = 7 ∧ t.flag (lineStat 0x32) = true) ∧
    (s.flag F.MOD_FCMD_BUSY = true ∨ s.mod.power = .off → exec cmd s = .next s) ∧
    (s.flag F.MOD_FCMD_BUSY = false → s.mod.power ≠ .off → ∃ t, exec cmd s = .next t ∧
      t.fld F.MOD_FCMD_ERR = s.flashErr erase ∧ t.flash = s.flash ∧
      (s.flashErr erase ≠ 0 → onlyRegs [F.MOD_FCMD_ERR.addr] s t) ∧
      (s.flashErr erase = 0 → t.flag F.MOD_FCMD_BUSY = true ∧
        t.flag (if erase then F.MOD_FCMD_ERASE else F.MOD_FCMD_PROG) = true ∧
        t.mod.fcmd = some (erase, s.fld F.MOD_FSEC_SECTOR, 64 * s.fld F.MOD_FSRC_ADDR))) ∧
    (s.mod.fcmd = none → exec (.flashDone vf) s = .next s) ∧
    (∀ e k src, s.mod.fcmd = some (e, k, src) → ∃ t, exec (.flashDone vf) s = .next t ∧
      t.mod.fcmd = none ∧ t.flag F.MOD_FCMD_BUSY = false ∧
      t.flag (if e then F.MOD_FCMD_ERASE else F.MOD_FCMD_PROG) = false ∧ t.flag F.MOD_FCMD_DONE = true ∧
      (∀ a, a / 65536 ≠ k → t.flashByte a = s.flashByte a) ∧ (∀ a, t.rd8 a = s.rd8 a) ∧
      (e = true → ∀ i, i < 65536 → t.flashByte (65536 * k + i) = 0xFF) ∧
      (e = false → vf = false → s.poisoned src 65536 = false →
        ∀ i, i < 65536 → t.flashByte (65536 * k + i) = s.ld8 (src + i)) ∧
      (e = false → s.poisoned src 65536 = true → t.fld F.MOD_FCMD_ERR = 4) ∧
      (e = false → s.poisoned src 65536 = false → vf = true → t.fld F.MOD_FCMD_ERR = 5))

/-! ### The host interface (chapter 17) -/

/-- R403 to R406: a write through the memory window stores the bytes its enables select, where the bank is in
use; a part of a
poisoned word, an offset beyond memory and one without rights are discarded and told. A read of the window gives the
bytes its enables select, none of a poisoned word, and the word's check corrects or tells its error. START loads the
channel's first descriptor, issues its reads by R402's limits or sends its data up to a poisoned word;
ABORT and a descriptor that ends write STATUS and DONE_BYTES, and the chain stops or goes on. -/
def Obligations.HostWindowAndDma : Prop :=
  ∀ (off : BitVec 24) (be : BitVec 8) (data : BitVec 64) (c : Fin 8) (s : State),
    let a := s.winAddr off.toNat / 8 * 8
    let write := Instr.hostWindowWrite off be data
    let shut := be = 0 ∨ (s.mod.fence = true ∧ 0x08000000 ≤ a)
    let tells := fun (line : Nat) => ∃ t, exec write s = .next t ∧ t.flag (lineStat line) = true ∧
      t.untold s = s ∧ regsTold [] s t
    let rd := hostWindowRead off.toNat be s
    let asked := (List.range 8).filter (fun i => be.getLsbD i)
    let busy := dmaFld c F.HST_DSTAT_BUSY
    let fin := dmaFld c F.HST_DSTAT_DONE
    let code := dmaFld c F.HST_DSTAT_CODE
    let first := 32 * s.fld (dmaFld c F.HST_DDESC_ADDR)
    let e := s.dmaDesc first
    let d := s.dma c
    let placed := d.desc % 32 = 0 ∧ inProgram d.desc 32 = true ∧ s.bankOpen d.desc = true
    let results := fun (t : State) (x : Nat) =>
      t.rdN (d.desc + 24) 4 = x % 2 ^ 32 ∧ t.rdN (d.desc + 28) 4 = d.done % 2 ^ 32
    let stopped := fun (t : State) (x : Nat) => t.dma c = {} ∧ t.flag busy = false ∧ t.flag fin = true ∧
      t.fld code = x % 16
    let otherCh := fun (t : State) => ∀ k : Fin 8, k ≠ c → t.dma k = s.dma k
    (memEnd ≤ a → rd.1 = asked.map (fun _ => some 0) ∧ rd.2.flag (lineStat 0x02) = true) ∧
    (a < memEnd → s.poisoned a 8 = false → rd.1 = asked.map (fun i => some (s.ld8 (a + i))) ∧
      rd.2.ecc.ce = (if be = 0 then s.ecc.ce else s.ecc.ce.filter (fun w => decide (w ≠ a / 8))) ∧
      { rd.2 with ecc := s.ecc, regs := s.regs } = s ∧ rd.2.ecc.ue = s.ecc.ue ∧
      regsKept [F.GCR_ECC_CE_COUNT.addr] s rd.2) ∧
    (a < memEnd → s.poisoned a 8 = true → rd.1 = asked.map (fun _ => none) ∧ rd.2.mem = s.mem ∧
      (be ≠ 0 → rd.2.flag (lineStat 0x03) = true)) ∧
    (off.toNat < 0x800000 → exec write s = .next s) ∧
    (0x800000 ≤ off.toNat → memEnd ≤ a → tells 0x02) ∧
    (0x800000 ≤ off.toNat → a < memEnd → memWritable a = false → tells 0x00) ∧
    (0x800000 ≤ off.toNat → memWritable a = true → shut → exec write s = .next s) ∧
    (0x800000 ≤ off.toNat → memWritable a = true → ¬shut → be ≠ 0xFF → s.poisoned a 8 = true →
      tells 0x1B) ∧
    (0x800000 ≤ off.toNat → memWritable a = true → ¬shut → be = 0xFF ∨ s.poisoned a 8 = false →
      ∃ t, exec write s = .next t ∧ memKept a 8 s t ∧
        (∀ i, i < 8 → t.rd8 (a + i) =
          (if be.getLsbD i && s.bankOpen a then data.extractLsb' (8 * i) 8 else s.rd8 (a + i))) ∧
        (be = 0xFF → s.flag F.CCD_INJ_ARM = false → t.poisoned a 8 = false) ∧
        { t with mem := s.mem, ecc := s.ecc, cores := s.cores, regs := s.regs, arms := s.arms
                 free := s.free } = s ∧
        (∀ n, { t.core n with resv := (s.core n).resv } = s.core n) ∧
        regsKept (R.CCD_INJ :: F.GCR_ECC_CE_COUNT.addr ::
          (List.range 6).map (fun k => F.SWM_TBL_DIRTY.addr + 0x4000 * k)) s t) ∧
    (s.flag busy = true → exec (.dmaStart c) s = .next s) ∧
    (s.flag busy = false → s.poisoned first 32 = true → ∃ t, exec (.dmaStart c) s = .next t ∧
      t.flag busy = true ∧ t.dma c = { desc := first, busy := true, code := dcPoison } ∧ otherCh t ∧
      t.mem = s.mem ∧ t.flag (lineStat 0x03) = true) ∧
    (s.flag busy = false → s.poisoned first 32 = false → ∃ t, exec (.dmaStart c) s = .next t ∧
      t.flag busy = true ∧ otherCh t ∧ t.mem = s.mem ∧
      { t.dma c with issued := 0, done := 0, code := e.code } = e ∧
      (e.code ≠ dcOk ∨ s.flag F.HST_STAT_BME = false → t.dma c = e ∧ t.hst.tags = s.hst.tags) ∧
      (e.code = dcOk → s.flag F.HST_STAT_BME = true → e.toHost = true →
        let k := s.cleanLen e.sram e.len
        (t.dma c).done = k ∧ (t.dma c).code = (if k < e.len then dcPoison else dcOk) ∧
        (∀ i, i < k → tget (fun _ => 0) t.hst.hostMem (e.host + i) = s.ld8 (e.sram + i)) ∧
        ∀ x, ¬(e.host ≤ x ∧ x < e.host + k) →
          tget (fun _ => 0) t.hst.hostMem x = tget (fun _ => 0) s.hst.hostMem x) ∧
      (e.code = dcOk → s.flag F.HST_STAT_BME = true → e.toHost = false →
        (t.dma c).done = 0 ∧ (t.dma c).code = dcOk ∧ t.hst.hostMem = s.hst.hostMem ∧
        ((t.dma c).issued = e.len ∨ 256 ≤ t.hst.tags.length) ∧
        (s.hst.tags.length ≤ 256 → t.hst.tags.length ≤ 256) ∧
        ∀ x, x ∈ t.hst.tags → x ∈ s.hst.tags ∨
          (x.2.ch = c ∧ 0 < x.2.len ∧ x.2.len ≤ 512 ∧ x.2.len ≤ 128 * 2 ^ s.hst.mrrs ∧
            e.sram ≤ x.2.addr ∧ x.2.addr + x.2.len ≤ e.sram + (t.dma c).issued ∧
            (e.host + (x.2.addr - e.sram)) / 4096 = (e.host + (x.2.addr - e.sram) + x.2.len - 1) / 4096))) ∧
    (d.busy = false → exec (.dmaAbort c) s = .next s) ∧
    (d.busy = true → placed → ∃ t, exec (.dmaAbort c) s = .next t ∧ stopped t dcAborted ∧
      results t dcAborted ∧ otherCh t ∧ t.pba c = true ∧ t.flag F.HST_STAT_ABORT = true ∧
      t.flag (lineStat 0x2D) = true ∧ (∀ x, x ∈ t.hst.tags → x.2.ch ≠ c) ∧
      (d.toHost = true → memKept (d.desc + 24) 8 s t)) ∧
    (d.busy = false ∨ (d.code = dcOk ∧ d.done ≠ d.len) → exec (.descriptorEnd c) s = .next s) ∧
    (d.busy = true → placed → d.code ≠ dcOk → ∃ t, exec (.descriptorEnd c) s = .next t ∧
      stopped t d.code ∧ results t d.code ∧ t.pba c = true ∧ otherCh t ∧ memKept (d.desc + 24) 8 s t) ∧
    (d.busy = true → placed → d.code = dcOk → d.done = d.len →
      ∃ t, exec (.descriptorEnd c) s = .next t ∧ results t dcOk ∧ otherCh t ∧
        memKept (d.desc + 24) 8 s t ∧ (d.notify = true → t.pba c = true) ∧
        (d.next = 0 → stopped t dcOk ∧ (d.notify = false → t.pba c = s.pba c)) ∧
        (d.next ≠ 0 → d.next % 32 ≠ 0 ∨ inProgram d.next 32 = false → stopped t dcDesc) ∧
        (d.next ≠ 0 → d.next % 32 = 0 → inProgram d.next 32 = true →
          (t.dma c).desc = d.next ∧ (t.dma c).busy = true ∧ t.flag busy = s.flag busy))

/-- R402, R405 to R409: a completion stores its data and counts it, one with an error or one that does
not come within 50 ms ends the descriptor, and one that comes after the work ended is only counted.
Clearing Bus Master Enable leaves no channel at work; a function-level reset leaves the HST registers at
their reset values and every other register, and memory, as they were when no work was cut short. A
vector's message is sent when the host lets it; a doorbell reaches the cores it names. -/
def Obligations.HostBusAndInterrupts : Prop :=
  ∀ (tag : Fin 1024) (err : Bool) (data : List Byte) (cfg : HostCfg) (v : Fin 64) (bits : Byte)
    (s : State),
    let found := s.hst.tags.find? (fun e => e.1 == tag.val)
    let cpl := Instr.pcieCompletion tag err data
    let pbaRegs := [R.HST_PBA, R.HST_PBA + 4]
    (found = none → exec cpl s = .next s ∧ exec (.completionTimeout tag) s = .next s) ∧
    (∀ k e, found = some (k, e) →
      (e.ch = dmaDead → (∃ t, exec cpl s = .next t ∧ t.mem = s.mem ∧
          t.fld F.HST_STAT_LATE_CPL = min 65535 (s.fld F.HST_STAT_LATE_CPL + 1)) ∧
        ∃ t, exec (.completionTimeout tag) s = .next t ∧ t.mem = s.mem ∧
          t.now = max s.now (e.at_ + 50 * 10 ^ 9)) ∧
      (e.ch < 8 →
        (err = true → ∃ t, exec cpl s = .next t ∧ (t.dma e.ch).code = dcHostErr ∧ t.mem = s.mem) ∧
        (err = false → (s.mod.fence = false ∨ e.addr < 0x08000000) → ∃ t, exec cpl s = .next t ∧
          (∀ i, i < min e.len data.length → s.bankOpen (e.addr + i) = true →
            t.rd8 (e.addr + i) = data.getD i 0) ∧
          memKept e.addr (min e.len data.length) s t ∧
          ((s.dma e.ch).toHost = false →
            (t.dma e.ch).done = (s.dma e.ch).done + min e.len data.length)) ∧
        ∃ t, exec (.completionTimeout tag) s = .next t ∧ (t.dma e.ch).code = dcTimeout ∧
          t.now = max s.now (e.at_ + 50 * 10 ^ 9) ∧ t.mem = s.mem)) ∧
    (∃ t, exec (.bmeClear cfg) s = .next t ∧ t.flag F.HST_STAT_BME = cfg.bme ∧
      t.flag F.HST_STAT_MSIX_EN = cfg.msixEn ∧ t.fld F.HST_STAT_SPEED = cfg.speed.val ∧
      t.fld F.HST_STAT_WIDTH = cfg.width.val ∧ t.hst.msixEn = cfg.msixEn ∧
      t.hst.fnMask = cfg.fnMask ∧ t.hst.mrrs = cfg.mrrs.val ∧
      (s.flag F.HST_STAT_BME = true → cfg.bme = false → ∀ k : Fin 8, (t.dma k).busy = false ∧
        ((s.dma k).busy = true → t.flag (dmaFld k F.HST_DSTAT_DONE) = true ∧
          t.fld (dmaFld k F.HST_DSTAT_CODE) = dcAborted)) ∧
      (s.flag F.HST_STAT_BME = false → cfg.bme = false →
        { t with hst := s.hst, regs := s.regs } = s ∧ regsKept [R.HST_STAT] s t)) ∧
    (∃ t, exec .flr s = .next t ∧ (∀ a, isHst a = true → t.reg a = regReset a) ∧
      (∀ k : Fin 8, t.dma k = {}) ∧ t.hst.hostMem = s.hst.hostMem ∧
      ((∀ k : Fin 8, (s.dma k).busy = false) →
        (∀ e : Fin 2, s.trmBusy e = false ∨ (s.job e).hostUsed = false) →
        { t with hst := s.hst, regs := s.regs } = s ∧ ∀ a, isHst a = false → t.reg a = s.reg a)) ∧
    ((s.pba v && s.msixMay v) = false → exec (.msixSend v) s = .next s) ∧
    (s.pba v = true → s.msixMay v = true → ∃ t, exec (.msixSend v) s = .next t ∧ t.pba v = false ∧
      (∀ w : Fin 64, w ≠ v → t.pba w = s.pba w) ∧ t.hst = { s.hst with sent := v.val :: s.hst.sent } ∧
      { t with hst := s.hst, regs := s.regs } = s ∧ regsKept pbaRegs s t) ∧
    (∃ t, exec (.doorbell bits) s = .next t ∧ { t with cores := s.cores } = s ∧
      (∀ n, t.core n = { s.core n with ipend := (s.core n).ipend |||
        (if n < 8 ∧ bits.getLsbD n = true then 0x10 else 0) })) ∧
    (v.val < 32 → exec (.fwint v) s = .next s) ∧
    (32 ≤ v.val → ∃ t, exec (.fwint v) s = .next t ∧ t.pba v = true ∧
      (∀ w : Fin 64, w ≠ v → t.pba w = s.pba w) ∧ onlyRegs pbaRegs s t)

/-! ### The Ethernet ports (chapter 17) -/

/-- R410 to R414: a received frame is dropped while the port cannot take it or the FCS in its last four bytes fails, and else
goes where Table 17.5 says: a safety frame into the lowest free slot, another into the receive ring's
entry at HEAD, or nowhere. A transmit entry is sent, padded to 60 bytes and with its FCS, or completes with ERR, and HEAD
moves on; a safety frame with GO is sent before it. A link lost is told. -/
def Obligations.EthernetPorts : Prop :=
  ∀ (p : Bool) (raw : List Byte) (s : State),
    let l := stripFcs raw
    let ok := fcsOk raw
    let n := portNo p
    let f := fun (x : Fld) => ethFld p x
    let off := s.flag (f F.ETH_CTL_EN) = false ∨ s.flag (f F.ETH_CTL_LINK) = false ∨ rxMax raw < raw.length
    let rx := Instr.ethRxFrame p raw
    let next := fun (tx : Bool) => if s.ringSize p tx ≤ s.ringHead p tx + 1 then 0 else s.ringHead p tx + 1
    let counts := fun (x : Fld) => ∃ t, exec rx s = .next t ∧
      t.fld (f x) = min 65535 (s.fld (f x) + 1) ∧ onlyRegs [(f x).addr] s t
    let e := s.ringEntry p false (s.ringHead p false)
    let buf := s.rdN e 8
    let flags := 1 + (if ptpEvent l then 2 else 0) + (if vlanTagged l then 8 else 0)
    let x := s.ringEntry p true (s.ringHead p true)
    let send := s.flag (f F.ETH_CTL_EN) && s.ringHead p true != s.ringTail p true &&
      !(s.flag (f F.ETH_CTL_LINK) && (s.goTx p).isSome)
    let good := s.txOk x && s.flag (f F.ETH_CTL_LINK)
    let frame := s.rdBytes (s.rdN x 8) (s.rdN (x + 8) 2)
    let fl := s.rdN (x + 10) 2
    let line := fun (r : List Byte) =>
      let b := r ++ List.replicate (60 - r.length) 0
      b ++ leBytes 4 (crc32 b).toNat
    (off → exec rx s = .next s) ∧
    (¬off → ok = false → counts F.ETH_CNT_FCS_ERR) ∧
    (¬off → ok = true → l.length < 14 ∨ s.rxDest p l = .discard → exec rx s = .next s) ∧
    (¬off → ok = true → 14 ≤ l.length → s.rxDest p l = .safety →
      (s.smEn = false ∨ s.freeRx p = none → counts F.ETH_SAFE_SAFE_DROP) ∧
      ∀ k, s.smEn = true → s.freeRx p = some k → ∃ t, exec rx s = .next t ∧
        t.slotFlag (rxSlot p k) = true ∧ (∀ i, i < 60 → t.slotByte (rxSlot p k + i) = l.getD i 0) ∧
        (∀ a, ¬(rxSlot p k ≤ a ∧ a ≤ rxSlot p k + 60) → t.slotByte a = s.slotByte a) ∧
        { t with mts := s.mts } = s ∧ { t.mts with slots := s.mts.slots } = s.mts) ∧
    (¬off → ok = true → 14 ≤ l.length → s.rxDest p l = .ring →
      (s.ringHead p false = s.ringTail p false ∨ inProgram e 32 = false → counts F.ETH_CNT_RX_DROP) ∧
      (s.ringHead p false ≠ s.ringTail p false → inProgram e 32 = true → s.poisoned e 8 = false →
        rangeWritable buf l.length = true → buf % 8 = 0 → buf + l.length ≤ e ∨ e + 32 ≤ buf →
        s.mod.fence = false ∨ buf < 0x08000000 → (∀ i, i < 32 → s.bankOpen (e + i) = true) →
        ∃ t, exec rx s = .next t ∧
          (∀ i, i < l.length → s.bankOpen (buf + i) = true → t.rd8 (buf + i) = l.getD i 0) ∧ t.rdN (e + 8) 2 = l.length ∧
          t.rdN (e + 10) 2 = flags ∧ (ptpEvent l = true → t.rdN (e + 16) 8 = s.ns) ∧
          (∀ a, ¬(buf ≤ a ∧ a < buf + l.length) → ¬(e + 8 ≤ a ∧ a < e + 12) →
            ¬(ptpEvent l = true ∧ e + 16 ≤ a ∧ a < e + 24) → t.rd8 a = s.rd8 a) ∧
          t.ringHead p false = next false ∧ t.pba (16 + n) = true)) ∧
    (send = false → exec (.ethTxEntry p) s = .next s) ∧
    (send = true → ∃ t, exec (.ethTxEntry p) s = .next t ∧ t.ringHead p true = next true ∧
      t.fld (f F.ETH_HEAD_TX_HEAD) = next true % 4096 ∧ t.pba (18 + n) = true ∧
      t.ringHead p false = s.ringHead p false ∧
      (inProgram x 32 = false → t.mem = s.mem ∧ (t.ethp n).tx = (s.ethp n).tx) ∧
      (inProgram x 32 = true → memKept (x + 10) 2 s t ∧
        (t.ethp n).tx = (if good then line frame :: (s.ethp n).tx else (s.ethp n).tx) ∧
        ((∀ i, i < 2 → s.bankOpen (x + 10 + i) = true) →
          t.rdN (x + 10) 2 = fl % 16 / 2 * 2 + 1 + (if good then 0 else 16)) ∧
        t.ffy.stamps = s.ffy.stamps ++ (if good && fl.testBit 1 && ptpEvent frame then
          [{ seqId := beAt frame (typeOff frame + 32) 2, msgType := ptpMsgType frame, port := p
             domB := fl.testBit 2, time := s.ns }] else []))) ∧
    (s.flag (f F.ETH_CTL_EN) = false ∨ s.flag (f F.ETH_CTL_LINK) = false ∨ s.goTx p = none →
      exec (.safetyFrameTx p) s = .next s) ∧
    (∀ k, s.flag (f F.ETH_CTL_EN) = true → s.flag (f F.ETH_CTL_LINK) = true → s.goTx p = some k →
      ∃ t, exec (.safetyFrameTx p) s = .next t ∧
        (t.ethp n).tx = line (s.slotFrame (txSlot p k)) :: (s.ethp n).tx ∧ t.slotFlag (txSlot p k) = false ∧
        (∀ a, a ≠ txSlot p k + 60 → t.slotByte a = s.slotByte a) ∧
        { t with eth := s.eth, mts := s.mts } = s ∧ { t.mts with slots := s.mts.slots } = s.mts) ∧
    (s.flag (f F.ETH_CTL_LINK) = false → exec (.ethLink p) s = .next s) ∧
    (s.flag (f F.ETH_CTL_LINK) = true → exec (.blockLock p) s = .next s ∧
      ∃ t, exec (.ethLink p) s = .next t ∧ t.flag (f F.ETH_CTL_LINK) = false ∧
        t.flag (f F.ETH_CTL_LINK_CHG) = true ∧ t.flag (lineStat 0x2E) = true ∧ t.untold s = s ∧
        regsTold [(f F.ETH_CTL_LINK).addr] s t) ∧
    (s.flag (f F.ETH_CTL_LINK) = false → ∃ t, exec (.blockLock p) s = .next t ∧
      t.flag (f F.ETH_CTL_LINK) = true ∧ t.flag (f F.ETH_CTL_LINK_CHG) = true ∧
      onlyRegs [(f F.ETH_CTL_LINK).addr] s t)

/-! ### The auxiliary PWM (chapter 17) -/

/-- R415, R417, R418: at a period start, the first of which follows its enable, the channel takes its
settings, its counter is 0 and Midge takes the event; at a compare its output goes inactive and Midge takes
that event. The fault input low puts
the channels it acts on at high impedance; FLT is cleared only while the input is high, and the channels then
leave high impedance at their next period start, unless the input has stayed low the filter time for them again. A
bootstrap pulse begins after BOOT_T of continuous activity, on an output that stays active until then, and
lasts OFF. A frozen channel does none of this. -/
def Obligations.PwmOutputs : Prop :=
  ∀ (n : Fin 12) (s : State),
    let p := s.pwmCh n
    let duty := s.fld (pwmUp n F.PWM_DUTY_DUTY)
    let due := p.baseAt + (p.duty - p.base) * 2500
    let compares := p.running && !s.pwmFrozen && decide (p.base < p.duty) && decide (p.duty < p.per)
    let quietHiz := fun (q : PwmSt) => { q with hizMts := false }
    let rest := fun (t : State) =>
      { t.untold s with now := s.now, convs := s.convs } = s ∧
      ∀ m, m ≠ n.val → quietHiz (t.pwmCh m) = quietHiz (s.pwmCh m)
    let triggers := fun (src : Nat) (t : State) => ∀ c : Conv,
      let mine := s.cfld c F.MDG_CFG_TRIG_SRC = src ∧ s.cfld c F.MDG_CFG_TRIG_SEL = n.val ∧
        s.flagBit F.MDG_CTL_EN c = true
      (¬mine → t.conv c = s.conv c) ∧
      (mine → t.cflag c F.MDG_CSTAT_BUSY = true ∧
        (s.cflag c F.MDG_CSTAT_BUSY = false → (t.conv c).startAt = t.now + s.delayPs c) ∧
        (s.cflag c F.MDG_CSTAT_BUSY = true → t.cflag c F.MDG_CSTAT_PEND = true ∨
          s.cflag c F.MDG_CSTAT_PEND = true))
    let alone := fun (t : State) (now : Nat) (q : PwmSt) =>
      t = { s with now := now, pwm := (s.setPwmCh n q).pwm }
    (p.running = false ∧ p.startAt = none ∨ s.pwmFrozen = true →
      exec (.pwmPeriodStart n) s = .next s) ∧
    (∀ at_, s.pwmFrozen = false → p.base ≤ p.per →
      (p.running = true ∧ at_ = p.baseAt + (p.per - p.base) * 2500 ∨
        p.running = false ∧ p.startAt = some at_) → ∃ t, exec (.pwmPeriodStart n) s = .next t ∧ rest t ∧
      t.now = max s.now at_ ∧ triggers 2 t ∧
      quietHiz (t.pwmCh n) = { quietHiz p with
        running := true, startAt := none
        per := max 2 (s.fld (pwmUp n F.PWM_PER_PER)), duty := duty, ph := s.fld (pwmUp n F.PWM_PH_PH)
        base := 0, baseAt := at_, hizFlt := p.hizFlt && !p.fltOver, fltOver := false
        activeFrom := if duty ≠ 0 ∧ p.boot = none then
          some (if p.running = true ∧ p.per ≤ p.duty then p.activeFrom.getD at_ else at_) else none } ∧
      (s.fld (lineClass 0x11) ≠ 4 → (t.pwmCh n).hizMts =
        (p.hizMts && s.flag F.MTS_STAT_BLOCK_ALL && s.pwmHiz))) ∧
    (compares = false → exec (.pwmCompare n) s = .next s) ∧
    (compares = true → ∃ t, exec (.pwmCompare n) s = .next t ∧ rest t ∧ t.now = max s.now due ∧
      triggers 3 t ∧
      quietHiz (t.pwmCh n) = { quietHiz p with base := p.duty, baseAt := due, activeFrom := none }) ∧
    (∃ t, exec (.pwmFlt false) s = .next t ∧ t.flag F.PWM_FLT_PIN = true ∧
      t.pwm = { s.pwm with fltLow := false } ∧
      onlyRegs [F.PWM_FLT_PIN.addr] s { t with pwm := s.pwm }) ∧
    (s.pwm.fltLow = true → exec (.pwmFlt true) s = .next s) ∧
    (s.pwm.fltLow = false →
      ∃ t, exec (.pwmFlt true) s = .next t ∧ t.flag F.PWM_FLT_PIN = false ∧
      t.pwm.fltLow = true ∧ t.flag F.PWM_FLT_FLT = true ∧ t.flag (lineStat 0x2C) = true ∧ t.pba 15 = true ∧ t.untold s = s ∧
      regsTold [F.PWM_FLT_PIN.addr] s t ∧
      ∀ m : Fin 12, quietHiz (t.pwmCh m) = { quietHiz (s.pwmCh m) with
        hizFlt := (s.pwmCh m).hizFlt || (s.fld F.PWM_FLT_FLT_EN).testBit m
        fltOver := (s.pwmCh m).fltOver && !((s.fld F.PWM_FLT_FLT_EN).testBit m) }) ∧
    (∀ (src : Src) (data : Word), s.noneWaits = true → data.getLsbD F.PWM_FLT_FLT.lo = true →
      ∃ t, exec (.registerWrite src (BitVec.ofNat 24 R.PWM_FLT) 0xF data) s = .next t ∧
        (s.flag F.PWM_FLT_PIN = true → s.pwm.fltLow = false → t.flag F.PWM_FLT_FLT = false ∧
          ∀ m : Fin 12, t.pwmCh m = { s.pwmCh m with fltOver := (s.pwmCh m).hizFlt }) ∧
        (s.flag F.PWM_FLT_PIN = false → s.flag F.PWM_FLT_FLT = true → t.flag F.PWM_FLT_FLT = true) ∧
        (s.pwm.fltLow = true →
          ∀ m : Fin 12, (t.fld F.PWM_FLT_FLT_EN).testBit m = true →
            (t.pwmCh m).hizFlt = true ∧ (t.pwmCh m).fltOver = false)) ∧
    (s.flag (pwmUp n F.PWM_CFG_BOOT_EN) = false ∨ s.pwmFrozen = true ∨ p.boot ≠ none ∨
      (∀ at_, p.activeFrom = some at_ → s.staysActive n (at_ + s.bootT) = false) →
      exec (.bootRefresh n) s = .next s) ∧
    (∀ at_, s.flag (pwmUp n F.PWM_CFG_BOOT_EN) = true → s.pwmFrozen = false → p.boot = none →
      p.activeFrom = some at_ → s.staysActive n (at_ + s.bootT) = true → ∃ t, exec (.bootRefresh n) s = .next t ∧
        alone t (max s.now (at_ + s.bootT)) { p with boot := some t.now, activeFrom := none } ∧
        (p.hiz = false → p.held = none → t.pwmOut n = some (s.flag (pwmUp n F.PWM_CFG_POL)))) ∧
    (p.boot = none ∨ s.pwmFrozen = true → exec (.bootstrapRefreshEnd n) s = .next s) ∧
    (∀ at_, p.boot = some at_ → s.pwmFrozen = false → ∃ t, exec (.bootstrapRefreshEnd n) s = .next t ∧
      alone t (max s.now (at_ + s.bootOff)) { p with
        boot := none
        activeFrom := if p.running ∧ t.pwmCount n < p.duty then some t.now else none })

/-! ### Memory -/

/-- The commands of the list that store nothing leave every byte of memory as it reads. SWEEPS_STOP is one while
no task is to go to Stop and no safe image is owed (R291, R293), and RESUME while no store or safe image waits
(R253, R293, R297). Line bits that end in an eye report or an identity chunk are ones
while they hold no echo reply, whose sample is stored (R104, R106). HOST_GO is one always: it reads the image where it stands and
starts B0, whose waiting stores drain by commands of their own. -/
def Obligations.MemoryFrame : Prop :=
  ∀ (c : Instr) (s t : State), storesNothing c = true → exec c s = .next t →
    (∀ src, c = .sweepsStop src → ∀ k, k < 16 →
      (s.task k).pend ≠ some mdStop ∧ ((s.task k).safeDue = false ∨ s.taskHeld k = true)) →
    (∀ arm lane line, c = .eyeRep arm lane line ∨ c = .idRec arm lane line →
      ∀ u ∈ s.lineUnits arm lane line, u.utype ≠ utEchoRep) →
    (∀ n, c = .resume n → s.noneWaits = true ∧ ∀ k, k < 16 → s.taskCore k = n.val → (s.task k).safeDue = false) →
    ∀ a, t.rd8 a = s.rd8 a
end

