-- ==== Sys2Proof/Laws/Tab.lean ====
section
/-!
SUPPORT. Sparse tables: a read after a write, the canonical form that a write keeps, and that two
canonical tables which read alike are equal data.
-/

namespace Sys2Proof.Machine

@[simp] theorem tget_nil {α : Type} (d : Nat → α) (k : Nat) : tget d [] k = d k := rfl

theorem tget_cons {α : Type} (d : Nat → α) (k' : Nat) (v : α) (r : Tab α) (k : Nat) :
    tget d ((k', v) :: r) k = if k = k' then v else tget d r k := rfl

/-- Whether a table's keys all lie above a bound and rise strictly, with no entry as unlisted. -/
theorem twfFrom_cons {α : Type} [DecidableEq α] (d : Nat → α) (b : Option Nat) (k : Nat) (v : α)
    (r : Tab α) : twfFrom d b ((k, v) :: r) = true ↔
      (∀ x, b = some x → x < k) ∧ v ≠ d k ∧ twfFrom d (some k) r = true := by
  cases b <;> simp [twfFrom, and_assoc]

/-- A table with a lower bound reads as unlisted up to the bound. -/
theorem tget_below {α : Type} [DecidableEq α] (d : Nat → α) (r : Tab α) :
    ∀ (x k : Nat), twfFrom d (some x) r = true → k ≤ x → tget d r k = d k := by
  induction r with
  | nil => intro x k _ _; rfl
  | cons e r ih =>
    obtain ⟨k', v⟩ := e
    intro x k h hk
    obtain ⟨h1, -, h3⟩ := (twfFrom_cons d (some x) k' v r).1 h
    have hx := h1 x rfl
    rw [tget_cons, if_neg (by omega)]
    exact ih k' k h3 (by omega)

/-- A bound may be lowered. -/
theorem twfFrom_weaken {α : Type} [DecidableEq α] (d : Nat → α) (b c : Option Nat) (r : Tab α)
    (hbc : ∀ x, c = some x → ∃ y, b = some y ∧ x ≤ y) (h : twfFrom d b r = true) :
    twfFrom d c r = true := by
  cases r with
  | nil => rfl
  | cons e r =>
    obtain ⟨k, v⟩ := e
    obtain ⟨h1, h2, h3⟩ := (twfFrom_cons d b k v r).1 h
    refine (twfFrom_cons d c k v r).2 ⟨?_, h2, h3⟩
    intro x hx
    obtain ⟨y, hy, hxy⟩ := hbc x hx
    exact Nat.lt_of_le_of_lt hxy (h1 y hy)

/-- Taking an entry out keeps the canonical form. -/
theorem tdel_wfFrom {α : Type} [DecidableEq α] (d : Nat → α) (k : Nat) (m : Tab α) :
    ∀ (b : Option Nat), twfFrom d b m = true → twfFrom d b (tdel k m) = true := by
  induction m with
  | nil => intro b _; rfl
  | cons e r ih =>
    obtain ⟨k', v'⟩ := e
    intro b h
    obtain ⟨h1, h2, h3⟩ := (twfFrom_cons d b k' v' r).1 h
    unfold tdel
    split
    · exact twfFrom_weaken d (some k') b _ (fun x hx => ⟨k', rfl, Nat.le_of_lt (h1 x hx)⟩)
        (ih (some k') h3)
    · exact (twfFrom_cons d b k' v' _).2 ⟨h1, h2, ih (some k') h3⟩

/-- Putting a value that is not the unlisted one keeps the canonical form. -/
theorem tput_wfFrom {α : Type} [DecidableEq α] (d : Nat → α) (k : Nat) (v : α) (hv : v ≠ d k)
    (m : Tab α) : ∀ (b : Option Nat), (∀ x, b = some x → x < k) → twfFrom d b m = true →
      twfFrom d b (tput k v m) = true := by
  induction m with
  | nil => intro b hb _; exact (twfFrom_cons d b k v []).2 ⟨hb, hv, rfl⟩
  | cons e r ih =>
    obtain ⟨k', v'⟩ := e
    intro b hb h
    obtain ⟨h1, h2, h3⟩ := (twfFrom_cons d b k' v' r).1 h
    unfold tput
    split
    · rename_i hlt
      exact (twfFrom_cons d b k v _).2 ⟨hb, hv, (twfFrom_cons d (some k) k' v' r).2
        ⟨fun x hx => by cases hx; exact hlt, h2, h3⟩⟩
    · split
      · rename_i heq
        subst heq
        exact (twfFrom_cons d b k v r).2 ⟨hb, hv, h3⟩
      · refine (twfFrom_cons d b k' v' _).2 ⟨h1, h2, ih (some k') ?_ h3⟩
        intro x hx
        cases hx
        omega

/-- A write keeps the canonical form. -/
theorem tset_wf {α : Type} [DecidableEq α] (d : Nat → α) (k : Nat) (v : α) (m : Tab α)
    (h : twf d m = true) : twf d (tset d k v m) = true := by
  unfold tset
  split
  · exact tdel_wfFrom d k m none h
  · rename_i hv
    exact tput_wfFrom d k v hv m none (fun _ hx => by cases hx) h

theorem tget_tdel_same {α : Type} (d : Nat → α) (k : Nat) (m : Tab α) :
    tget d (tdel k m) k = d k := by
  induction m with
  | nil => rfl
  | cons e r ih =>
    obtain ⟨k', v'⟩ := e
    unfold tdel
    split
    · exact ih
    · rename_i hne; rw [tget_cons, if_neg hne, ih]

theorem tget_tput_same {α : Type} (d : Nat → α) (k : Nat) (v : α) (m : Tab α) :
    tget d (tput k v m) k = v := by
  induction m with
  | nil => simp [tput, tget_cons]
  | cons e r ih =>
    obtain ⟨k', v'⟩ := e
    unfold tput
    split
    · simp [tget_cons]
    · split
      · simp [tget_cons]
      · rename_i hne; rw [tget_cons, if_neg hne, ih]

/-- A read of the key just written, in any table. -/
@[simp] theorem tget_tset_same {α : Type} [DecidableEq α] (d : Nat → α) (k : Nat) (v : α)
    (m : Tab α) : tget d (tset d k v m) k = v := by
  unfold tset
  split
  · rename_i hv; rw [tget_tdel_same, hv]
  · exact tget_tput_same d k v m

theorem tget_tdel_ne {α : Type} (d : Nat → α) (k j : Nat) (m : Tab α) (h : j ≠ k) :
    tget d (tdel k m) j = tget d m j := by
  induction m with
  | nil => rfl
  | cons e r ih =>
    obtain ⟨k', v'⟩ := e
    unfold tdel
    split
    · rename_i heq; subst heq; rw [ih, tget_cons, if_neg h]
    · rw [tget_cons, tget_cons, ih]

theorem tget_tput_ne {α : Type} (d : Nat → α) (k j : Nat) (v : α) (m : Tab α) (h : j ≠ k) :
    tget d (tput k v m) j = tget d m j := by
  induction m with
  | nil => rw [tput, tget_cons, if_neg h]
  | cons e r ih =>
    obtain ⟨k', v'⟩ := e
    unfold tput
    split
    · rw [tget_cons, if_neg h]
    · split
      · rename_i heq
        subst heq
        rw [tget_cons, if_neg h, tget_cons, if_neg h]
      · rw [tget_cons, tget_cons, ih]

/-- A write leaves every other key as it was, in any table. -/
@[simp] theorem tget_tset_ne {α : Type} [DecidableEq α] (d : Nat → α) (k j : Nat) (v : α) (m : Tab α)
    (h : j ≠ k) : tget d (tset d k v m) j = tget d m j := by
  unfold tset
  split
  · exact tget_tdel_ne d k j m h
  · exact tget_tput_ne d k j v m h

/-- Two canonical tables above one bound that read alike are equal. -/
theorem twfFrom_ext {α : Type} [DecidableEq α] (d : Nat → α) (m : Tab α) :
    ∀ (n : Tab α) (b : Option Nat), twfFrom d b m = true → twfFrom d b n = true →
      (∀ k, tget d m k = tget d n k) → m = n := by
  induction m with
  | nil =>
    intro n b _ hn h
    cases n with
    | nil => rfl
    | cons e n =>
      obtain ⟨k, v⟩ := e
      obtain ⟨-, h2, -⟩ := (twfFrom_cons d b k v n).1 hn
      have := h k
      rw [tget_cons, if_pos rfl] at this
      exact absurd this.symm h2
  | cons e m ih =>
    obtain ⟨k, v⟩ := e
    intro n b hm hn h
    obtain ⟨-, m2, m3⟩ := (twfFrom_cons d b k v m).1 hm
    cases n with
    | nil =>
      have := h k
      rw [tget_cons, if_pos rfl] at this
      exact absurd this m2
    | cons e' n =>
      obtain ⟨k', v'⟩ := e'
      obtain ⟨-, n2, n3⟩ := (twfFrom_cons d b k' v' n).1 hn
      have hkk : k = k' := by
        rcases Nat.lt_trichotomy k k' with hlt | heq | hgt
        · have := h k
          rw [tget_cons, if_pos rfl, tget_cons, if_neg (by omega),
            tget_below d n k' k n3 (by omega)] at this
          exact absurd this m2
        · exact heq
        · have := h k'
          rw [tget_cons, if_neg (by omega), tget_cons, if_pos rfl,
            tget_below d m k k' m3 (by omega)] at this
          exact absurd this.symm n2
      subst hkk
      have hv : v = v' := by simpa [tget_cons] using h k
      subst hv
      rw [ih n (some k) m3 n3 (fun j => ?_)]
      by_cases hj : j = k
      · subst hj
        rw [tget_below d m j j m3 (Nat.le_refl j), tget_below d n j j n3 (Nat.le_refl j)]
      · have := h j
        rwa [tget_cons, if_neg hj, tget_cons, if_neg hj] at this

/-- Two canonical tables that read alike are equal data. -/
theorem twf_ext {α : Type} [DecidableEq α] (d : Nat → α) (m n : Tab α) (hm : twf d m = true)
    (hn : twf d n = true) (h : ∀ k, tget d m k = tget d n k) : m = n :=
  twfFrom_ext d m n none hm hn h

/-- A repetition each of whose rounds leaves the state as it is. -/
theorem forN_fix {σ : Type} (n : Nat) (f : Nat → σ → σ) (s : σ) (h : ∀ i, i < n → f i s = s) :
    forN n f s = s := by
  unfold forN
  have : ∀ l : List Nat, (∀ i ∈ l, i < n) → l.foldl (fun acc i => f i acc) s = s := by
    intro l hl
    induction l with
    | nil => rfl
    | cons i l ih =>
      rw [List.foldl_cons, h i (hl i (by simp))]
      exact ih (fun k hk => hl k (by simp [hk]))
  exact this _ (fun i hi => List.mem_range.1 hi)

/-- Folding a step that keeps a property keeps it. -/
theorem forN_keeps {σ : Type} (P : σ → Prop) (n : Nat) (f : Nat → σ → σ) (s : σ)
    (hf : ∀ i t, P t → P (f i t)) (h : P s) : P (forN n f s) := by
  unfold forN
  induction (List.range n) generalizing s with
  | nil => exact h
  | cons i l ih => exact ih (f i s) (hf i s h)

theorem forL_keeps {α σ : Type} (P : σ → Prop) (l : List α) (f : α → σ → σ) (s : σ)
    (hf : ∀ x t, P t → P (f x t)) (h : P s) : P (forL l f s) := by
  unfold forL
  induction l generalizing s with
  | nil => exact h
  | cons x l ih => exact ih (f x s) (hf x s h)

end Sys2Proof.Machine
end

