-- ==== Sys2Proof/Laws/Core.lean ====
section
/-!
SUPPORT. The cores: reads after writes of a core and of its registers, what a fetch, the settling of
stores and modes, and the end of an instruction can do.
-/

namespace Sys2Proof.Machine

@[simp] theorem core_setCore (s : State) (n : Nat) (c : CoreSt) : (s.setCore n c).core n = c := by
  simp [State.core, State.setCore]

@[simp] theorem core_setCore_ne (s : State) (n m : Nat) (c : CoreSt) (h : m ≠ n) :
    (s.setCore n c).core m = s.core m := by
  simp [State.core, State.setCore, h]

@[simp] theorem greg_setG (c : CoreSt) (r : Nat) (v : Word) :
    (c.setG r v).greg r = if r = 0 then 0 else v := by
  unfold CoreSt.greg CoreSt.setG
  split <;> simp

@[simp] theorem greg_setG_ne (c : CoreSt) (r q : Nat) (v : Word) (h : q ≠ r) :
    (c.setG r v).greg q = c.greg q := by
  unfold CoreSt.greg CoreSt.setG
  by_cases hr : r = 0 <;> simp [hr, h]

/-- A write of a general register leaves the rest of the core. -/
theorem setG_keeps (c : CoreSt) (r : Nat) (v : Word) : { c.setG r v with g := c.g } = c := by
  unfold CoreSt.setG
  split <;> rfl

@[simp] theorem setG_pc (c : CoreSt) (r : Nat) (v : Word) : (c.setG r v).pc = c.pc := by
  unfold CoreSt.setG; split <;> rfl
@[simp] theorem setG_status (c : CoreSt) (r : Nat) (v : Word) : (c.setG r v).status = c.status := by
  unfold CoreSt.setG; split <;> rfl
@[simp] theorem setG_wait (c : CoreSt) (r : Nat) (v : Word) : (c.setG r v).wait = c.wait := by
  unfold CoreSt.setG; split <;> rfl
@[simp] theorem setG_icache (c : CoreSt) (r : Nat) (v : Word) : (c.setG r v).icache = c.icache := by
  unfold CoreSt.setG; split <;> rfl
@[simp] theorem setG_run (c : CoreSt) (r : Nat) (v : Word) : (c.setG r v).run = c.run := by
  unfold CoreSt.setG; split <;> rfl
@[simp] theorem setG_sb (c : CoreSt) (r : Nat) (v : Word) : (c.setG r v).sb = c.sb := by
  unfold CoreSt.setG; split <;> rfl
@[simp] theorem greg_advance (c : CoreSt) (r : Nat) : c.advance.greg r = c.greg r := rfl

/-- A read that meets no corrected and no poisoned word is made without any effect. -/
theorem checkRead_clean (s : State) (a n : Nat) (h : s.clean a n = true) : s.checkRead a n = s := by
  simp only [State.clean, State.poisoned, Bool.and_eq_true, Bool.not_eq_true', List.any_eq_false] at h
  obtain ⟨hp, hc⟩ := h
  have none : ∀ l : List Nat, (∀ x ∈ l, ¬(decide (x * 8 < a + n) = true ∧ decide (a < x * 8 + 8) = true)) →
      l.filter (fun w => decide (w * 8 < a + n) && decide (a < w * 8 + 8)) = [] :=
    fun l hl => List.filter_eq_nil_iff.2 (fun x hx => by simpa using hl x hx)
  have hco : s.correct a n = s := by simp only [State.correct, none s.ecc.ce hc, List.length_nil, if_true]
  have hul : s.ueLines a n = [] := by simp only [State.ueLines, none s.ecc.ue hp]; rfl
  simp only [State.checkRead, hco, hul]
  rfl

/-- With no stopped core's store or start waiting, nothing drains. -/
theorem drainStopped_noneWaits (s : State) (h : s.noneWaits = true) : drainStopped s = s := by
  simp only [State.noneWaits, Bool.and_eq_true, List.all_eq_true, List.mem_range] at h
  refine forN_fix _ _ _ (fun _ _ => forN_fix _ _ _ (fun m hm => ?_))
  obtain ⟨hr, hs⟩ := h.1 m hm
  rw [if_neg (by revert hr; cases (s.core m).run <;> cases (s.core m).sb.isEmpty <;> simp)]
  unfold startDrained
  rw [if_neg (by revert hs; cases (s.core m).startDue <;> simp)]

/-- With nothing waiting, settling changes nothing. -/
theorem settled_noneWaits (s : State) (h : s.noneWaits = true) : s.settled = s := by
  unfold State.settled
  rw [drainStopped_noneWaits s h]
  unfold tasksSettle
  split
  · rfl
  · rename_i hn
    simp only [State.noneWaits, Bool.and_eq_true, Bool.or_eq_true, List.all_eq_true, List.mem_range] at h
    simp only [Bool.or_eq_true] at hn
    have ht := h.2.resolve_left hn
    refine forN_fix _ _ _ (fun _ _ => forN_fix _ _ _ (fun t hlt => ?_))
    obtain ⟨hp, hs⟩ := ht t hlt
    have hso : safeOwed t s = s := by
      unfold safeOwed
      rw [if_neg (by revert hs; cases (s.task t).safeDue <;> cases s.taskHeld t <;> simp)]
    rw [hso]
    unfold applyMode
    cases hq : (s.task t).pend with
    | none => rfl
    | some m => simp [hq] at hp

/-- Replacing a core by one that runs or has no store waiting, is not about to start, and is halted as
it was, lets nothing wait. -/
theorem noneWaits_setCore (s : State) (n : Nat) (c : CoreSt) (h : s.noneWaits = true)
    (hr : c.run = true ∨ c.sb = []) (hs : n < 8 → c.startDue = false) (hh : c.halted = (s.core n).halted) :
    (s.setCore n c).noneWaits = true := by
  simp only [State.noneWaits, Bool.and_eq_true, List.all_eq_true, List.mem_range] at h ⊢
  have hd : ∀ t, (s.setCore n c).taskHeld t = s.taskHeld t := by
    intro t
    change ((s.setCore n c).core (s.taskCore t)).halted = (s.core (s.taskCore t)).halted
    by_cases ht : s.taskCore t = n
    · rw [ht, core_setCore, hh]
    · rw [core_setCore_ne s n _ c ht]
  refine ⟨fun m hm => ?_, ?_⟩
  · by_cases hmn : m = n
    · subst hmn
      rcases hr with hr | hr <;> simp [hr, hs hm]
    · simpa [core_setCore_ne s n m c hmn] using h.1 m hm
  · simp only [hd]; exact h.2

/-- A fill of the instruction cache changes the core's cache alone, and lets nothing wait. -/
theorem fillCache_cache (s : State) (n : Nat) (hrun : (s.core n).run = true) (h : s.noneWaits = true) :
    onlyCore n s (fillCache n s) ∧
      { (fillCache n s).core n with icache := (s.core n).icache } = s.core n ∧
      (fillCache n s).noneWaits = true := by
  have hs : n < 8 → (s.core n).startDue = false := by
    intro hn
    simp only [State.noneWaits, Bool.and_eq_true, List.all_eq_true, List.mem_range] at h
    simpa using (h.1 n hn).2
  unfold fillCache
  dsimp only
  split <;>
  · refine ⟨⟨rfl, fun m hm => core_setCore_ne s n m _ hm⟩, ?_, noneWaits_setCore s n _ h (Or.inl hrun) hs rfl⟩
    exact congrArg (fun c : CoreSt => { c with icache := (s.core n).icache }) (core_setCore s n _)

/-- What a core that stands at an instruction gets from its fetch: at most its instruction cache is
filled. -/
theorem fetch_atInstr (s : State) (n : Nat) (h : s.atInstr n = true) :
    fetch n s = (true, fillCache n s) ∨ fetch n s = (true, s) := by
  simp only [State.atInstr, Bool.and_eq_true, Bool.or_eq_true, beq_iff_eq] at h
  obtain ⟨⟨⟨-, hx⟩, hc⟩, -⟩ := h
  unfold fetch
  simp only [hx]
  by_cases hb : n = coreBs ∨ (tget (fun _ => none) (s.core n).icache (s.core n).pc.toNat).isSome
  · exact Or.inr (by simp [hb])
  · have hcl : s.clean (s.core n).pc.toNat 4 = true := by
      rcases hc with (hc | hc) | hc
      · exact absurd (Or.inl hc) hb
      · exact absurd (Or.inr hc) hb
      · exact hc
    have hp : s.poisoned (s.core n).pc.toNat 4 = false := by
      simp only [State.clean, Bool.and_eq_true, Bool.not_eq_true'] at hcl
      exact hcl.1
    exact Or.inl (by simp only [hb, checkRead_clean s _ 4 hcl, hp]; rfl)

/-- A core at an instruction runs, and nothing else waits. -/
theorem atInstr_run (s : State) (n : Nat) (h : s.atInstr n = true) :
    (s.core n).ready = true ∧ (s.core n).run = true ∧ (s.core n).wait = .none ∧ s.noneWaits = true := by
  simp only [State.atInstr, Bool.and_eq_true] at h
  obtain ⟨⟨⟨hr, -⟩, -⟩, hn⟩ := h
  refine ⟨hr, ?_, ?_, hn⟩
  · simp only [CoreSt.ready, CoreSt.live, Bool.and_eq_true] at hr
    exact hr.1.1.1.1
  · simp only [CoreSt.ready, Bool.and_eq_true, beq_iff_eq] at hr
    exact hr.2

/-- An instruction of a core at an instruction acts on the state with, at most, the instruction cache
filled. -/
theorem scalar_atInstr (s : State) (n : Nat) (f : State → State) (h : s.atInstr n = true) :
    ∃ s0, scalar n f s = (f s0).settled ∧ onlyCore n s s0 ∧
      { s0.core n with icache := (s.core n).icache } = s.core n ∧ s0.noneWaits = true := by
  obtain ⟨hr, hrun, -, hn⟩ := atInstr_run s n h
  rcases fetch_atInstr s n h with hf | hf
  · obtain ⟨h1, h2, h3⟩ := fillCache_cache s n hrun hn
    exact ⟨fillCache n s, by unfold scalar; rw [if_pos hr, hf]; rfl, h1, h2, h3⟩
  · refine ⟨s, ?_, ⟨rfl, fun _ _ => rfl⟩, rfl, hn⟩
    unfold scalar; rw [if_pos hr, hf]; rfl

end Sys2Proof.Machine
end

