-- ==== Sys2Proof/Laws/State.lean ====
section
/-!
SUPPORT. What each update of the state leaves: one lemma for a field and an update, and a read of the
part just written.
-/

namespace Sys2Proof.Machine

variable (s : State)

/-! ### setReg -/

@[simp] theorem setReg_pending (a : Nat) (v : Word) : (s.setReg a v).pending = s.pending := rfl
@[simp] theorem setReg_now (a : Nat) (v : Word) : (s.setReg a v).now = s.now := rfl
@[simp] theorem setReg_eff (a : Nat) (v : Word) : (s.setReg a v).eff = s.eff := rfl
@[simp] theorem setReg_hiLatch (a : Nat) (v : Word) : (s.setReg a v).hiLatch = s.hiLatch := rfl
@[simp] theorem setReg_hiStage (a : Nat) (v : Word) : (s.setReg a v).hiStage = s.hiStage := rfl
@[simp] theorem setReg_mem (a : Nat) (v : Word) : (s.setReg a v).mem = s.mem := rfl
@[simp] theorem setReg_flash (a : Nat) (v : Word) : (s.setReg a v).flash = s.flash := rfl
@[simp] theorem setReg_ecc (a : Nat) (v : Word) : (s.setReg a v).ecc = s.ecc := rfl
@[simp] theorem setReg_crk (a : Nat) (v : Word) : (s.setReg a v).crk = s.crk := rfl
@[simp] theorem setReg_cells (a : Nat) (v : Word) : (s.setReg a v).cells = s.cells := rfl
@[simp] theorem setReg_arms (a : Nat) (v : Word) : (s.setReg a v).arms = s.arms := rfl
@[simp] theorem setReg_dcal (a : Nat) (v : Word) : (s.setReg a v).dcal = s.dcal := rfl
@[simp] theorem setReg_hrn (a : Nat) (v : Word) : (s.setReg a v).hrn = s.hrn := rfl
@[simp] theorem setReg_hooks (a : Nat) (v : Word) : (s.setReg a v).hooks = s.hooks := rfl
@[simp] theorem setReg_convs (a : Nat) (v : Word) : (s.setReg a v).convs = s.convs := rfl
@[simp] theorem setReg_pairs (a : Nat) (v : Word) : (s.setReg a v).pairs = s.pairs := rfl
@[simp] theorem setReg_lcw (a : Nat) (v : Word) : (s.setReg a v).lcw = s.lcw := rfl
@[simp] theorem setReg_dfy (a : Nat) (v : Word) : (s.setReg a v).dfy = s.dfy := rfl
@[simp] theorem setReg_ffy (a : Nat) (v : Word) : (s.setReg a v).ffy = s.ffy := rfl
@[simp] theorem setReg_cores (a : Nat) (v : Word) : (s.setReg a v).cores = s.cores := rfl
@[simp] theorem setReg_tasks (a : Nat) (v : Word) : (s.setReg a v).tasks = s.tasks := rfl
@[simp] theorem setReg_hive (a : Nat) (v : Word) : (s.setReg a v).hive = s.hive := rfl
@[simp] theorem setReg_mth (a : Nat) (v : Word) : (s.setReg a v).mth = s.mth := rfl
@[simp] theorem setReg_trm (a : Nat) (v : Word) : (s.setReg a v).trm = s.trm := rfl
@[simp] theorem setReg_twn (a : Nat) (v : Word) : (s.setReg a v).twn = s.twn := rfl
@[simp] theorem setReg_mts (a : Nat) (v : Word) : (s.setReg a v).mts = s.mts := rfl
@[simp] theorem setReg_ccd (a : Nat) (v : Word) : (s.setReg a v).ccd = s.ccd := rfl
@[simp] theorem setReg_mod (a : Nat) (v : Word) : (s.setReg a v).mod = s.mod := rfl
@[simp] theorem setReg_hst (a : Nat) (v : Word) : (s.setReg a v).hst = s.hst := rfl
@[simp] theorem setReg_eth (a : Nat) (v : Word) : (s.setReg a v).eth = s.eth := rfl
@[simp] theorem setReg_pwm (a : Nat) (v : Word) : (s.setReg a v).pwm = s.pwm := rfl
@[simp] theorem setReg_free (a : Nat) (v : Word) : (s.setReg a v).free = s.free := rfl

/-! ### setFld -/

@[simp] theorem setFld_pending (x : Fld) (v : Nat) : (s.setFld x v).pending = s.pending := rfl
@[simp] theorem setFld_now (x : Fld) (v : Nat) : (s.setFld x v).now = s.now := rfl
@[simp] theorem setFld_eff (x : Fld) (v : Nat) : (s.setFld x v).eff = s.eff := rfl
@[simp] theorem setFld_hiLatch (x : Fld) (v : Nat) : (s.setFld x v).hiLatch = s.hiLatch := rfl
@[simp] theorem setFld_hiStage (x : Fld) (v : Nat) : (s.setFld x v).hiStage = s.hiStage := rfl
@[simp] theorem setFld_mem (x : Fld) (v : Nat) : (s.setFld x v).mem = s.mem := rfl
@[simp] theorem setFld_flash (x : Fld) (v : Nat) : (s.setFld x v).flash = s.flash := rfl
@[simp] theorem setFld_ecc (x : Fld) (v : Nat) : (s.setFld x v).ecc = s.ecc := rfl
@[simp] theorem setFld_crk (x : Fld) (v : Nat) : (s.setFld x v).crk = s.crk := rfl
@[simp] theorem setFld_cells (x : Fld) (v : Nat) : (s.setFld x v).cells = s.cells := rfl
@[simp] theorem setFld_arms (x : Fld) (v : Nat) : (s.setFld x v).arms = s.arms := rfl
@[simp] theorem setFld_dcal (x : Fld) (v : Nat) : (s.setFld x v).dcal = s.dcal := rfl
@[simp] theorem setFld_hrn (x : Fld) (v : Nat) : (s.setFld x v).hrn = s.hrn := rfl
@[simp] theorem setFld_hooks (x : Fld) (v : Nat) : (s.setFld x v).hooks = s.hooks := rfl
@[simp] theorem setFld_convs (x : Fld) (v : Nat) : (s.setFld x v).convs = s.convs := rfl
@[simp] theorem setFld_pairs (x : Fld) (v : Nat) : (s.setFld x v).pairs = s.pairs := rfl
@[simp] theorem setFld_lcw (x : Fld) (v : Nat) : (s.setFld x v).lcw = s.lcw := rfl
@[simp] theorem setFld_dfy (x : Fld) (v : Nat) : (s.setFld x v).dfy = s.dfy := rfl
@[simp] theorem setFld_ffy (x : Fld) (v : Nat) : (s.setFld x v).ffy = s.ffy := rfl
@[simp] theorem setFld_cores (x : Fld) (v : Nat) : (s.setFld x v).cores = s.cores := rfl
@[simp] theorem setFld_tasks (x : Fld) (v : Nat) : (s.setFld x v).tasks = s.tasks := rfl
@[simp] theorem setFld_hive (x : Fld) (v : Nat) : (s.setFld x v).hive = s.hive := rfl
@[simp] theorem setFld_mth (x : Fld) (v : Nat) : (s.setFld x v).mth = s.mth := rfl
@[simp] theorem setFld_trm (x : Fld) (v : Nat) : (s.setFld x v).trm = s.trm := rfl
@[simp] theorem setFld_twn (x : Fld) (v : Nat) : (s.setFld x v).twn = s.twn := rfl
@[simp] theorem setFld_mts (x : Fld) (v : Nat) : (s.setFld x v).mts = s.mts := rfl
@[simp] theorem setFld_ccd (x : Fld) (v : Nat) : (s.setFld x v).ccd = s.ccd := rfl
@[simp] theorem setFld_mod (x : Fld) (v : Nat) : (s.setFld x v).mod = s.mod := rfl
@[simp] theorem setFld_hst (x : Fld) (v : Nat) : (s.setFld x v).hst = s.hst := rfl
@[simp] theorem setFld_eth (x : Fld) (v : Nat) : (s.setFld x v).eth = s.eth := rfl
@[simp] theorem setFld_pwm (x : Fld) (v : Nat) : (s.setFld x v).pwm = s.pwm := rfl
@[simp] theorem setFld_free (x : Fld) (v : Nat) : (s.setFld x v).free = s.free := rfl

/-! ### setFlag -/

@[simp] theorem setFlag_pending (x : Fld) (b : Bool) : (s.setFlag x b).pending = s.pending := rfl
@[simp] theorem setFlag_now (x : Fld) (b : Bool) : (s.setFlag x b).now = s.now := rfl
@[simp] theorem setFlag_eff (x : Fld) (b : Bool) : (s.setFlag x b).eff = s.eff := rfl
@[simp] theorem setFlag_hiLatch (x : Fld) (b : Bool) : (s.setFlag x b).hiLatch = s.hiLatch := rfl
@[simp] theorem setFlag_hiStage (x : Fld) (b : Bool) : (s.setFlag x b).hiStage = s.hiStage := rfl
@[simp] theorem setFlag_mem (x : Fld) (b : Bool) : (s.setFlag x b).mem = s.mem := rfl
@[simp] theorem setFlag_flash (x : Fld) (b : Bool) : (s.setFlag x b).flash = s.flash := rfl
@[simp] theorem setFlag_ecc (x : Fld) (b : Bool) : (s.setFlag x b).ecc = s.ecc := rfl
@[simp] theorem setFlag_crk (x : Fld) (b : Bool) : (s.setFlag x b).crk = s.crk := rfl
@[simp] theorem setFlag_cells (x : Fld) (b : Bool) : (s.setFlag x b).cells = s.cells := rfl
@[simp] theorem setFlag_arms (x : Fld) (b : Bool) : (s.setFlag x b).arms = s.arms := rfl
@[simp] theorem setFlag_dcal (x : Fld) (b : Bool) : (s.setFlag x b).dcal = s.dcal := rfl
@[simp] theorem setFlag_hrn (x : Fld) (b : Bool) : (s.setFlag x b).hrn = s.hrn := rfl
@[simp] theorem setFlag_hooks (x : Fld) (b : Bool) : (s.setFlag x b).hooks = s.hooks := rfl
@[simp] theorem setFlag_convs (x : Fld) (b : Bool) : (s.setFlag x b).convs = s.convs := rfl
@[simp] theorem setFlag_pairs (x : Fld) (b : Bool) : (s.setFlag x b).pairs = s.pairs := rfl
@[simp] theorem setFlag_lcw (x : Fld) (b : Bool) : (s.setFlag x b).lcw = s.lcw := rfl
@[simp] theorem setFlag_dfy (x : Fld) (b : Bool) : (s.setFlag x b).dfy = s.dfy := rfl
@[simp] theorem setFlag_ffy (x : Fld) (b : Bool) : (s.setFlag x b).ffy = s.ffy := rfl
@[simp] theorem setFlag_cores (x : Fld) (b : Bool) : (s.setFlag x b).cores = s.cores := rfl
@[simp] theorem setFlag_tasks (x : Fld) (b : Bool) : (s.setFlag x b).tasks = s.tasks := rfl
@[simp] theorem setFlag_hive (x : Fld) (b : Bool) : (s.setFlag x b).hive = s.hive := rfl
@[simp] theorem setFlag_mth (x : Fld) (b : Bool) : (s.setFlag x b).mth = s.mth := rfl
@[simp] theorem setFlag_trm (x : Fld) (b : Bool) : (s.setFlag x b).trm = s.trm := rfl
@[simp] theorem setFlag_twn (x : Fld) (b : Bool) : (s.setFlag x b).twn = s.twn := rfl
@[simp] theorem setFlag_mts (x : Fld) (b : Bool) : (s.setFlag x b).mts = s.mts := rfl
@[simp] theorem setFlag_ccd (x : Fld) (b : Bool) : (s.setFlag x b).ccd = s.ccd := rfl
@[simp] theorem setFlag_mod (x : Fld) (b : Bool) : (s.setFlag x b).mod = s.mod := rfl
@[simp] theorem setFlag_hst (x : Fld) (b : Bool) : (s.setFlag x b).hst = s.hst := rfl
@[simp] theorem setFlag_eth (x : Fld) (b : Bool) : (s.setFlag x b).eth = s.eth := rfl
@[simp] theorem setFlag_pwm (x : Fld) (b : Bool) : (s.setFlag x b).pwm = s.pwm := rfl
@[simp] theorem setFlag_free (x : Fld) (b : Bool) : (s.setFlag x b).free = s.free := rfl

/-! ### setFlagBit -/

@[simp] theorem setFlagBit_pending (x : Fld) (i : Nat) (b : Bool) : (s.setFlagBit x i b).pending = s.pending := rfl
@[simp] theorem setFlagBit_now (x : Fld) (i : Nat) (b : Bool) : (s.setFlagBit x i b).now = s.now := rfl
@[simp] theorem setFlagBit_eff (x : Fld) (i : Nat) (b : Bool) : (s.setFlagBit x i b).eff = s.eff := rfl
@[simp] theorem setFlagBit_hiLatch (x : Fld) (i : Nat) (b : Bool) : (s.setFlagBit x i b).hiLatch = s.hiLatch := rfl
@[simp] theorem setFlagBit_hiStage (x : Fld) (i : Nat) (b : Bool) : (s.setFlagBit x i b).hiStage = s.hiStage := rfl
@[simp] theorem setFlagBit_mem (x : Fld) (i : Nat) (b : Bool) : (s.setFlagBit x i b).mem = s.mem := rfl
@[simp] theorem setFlagBit_flash (x : Fld) (i : Nat) (b : Bool) : (s.setFlagBit x i b).flash = s.flash := rfl
@[simp] theorem setFlagBit_ecc (x : Fld) (i : Nat) (b : Bool) : (s.setFlagBit x i b).ecc = s.ecc := rfl
@[simp] theorem setFlagBit_crk (x : Fld) (i : Nat) (b : Bool) : (s.setFlagBit x i b).crk = s.crk := rfl
@[simp] theorem setFlagBit_cells (x : Fld) (i : Nat) (b : Bool) : (s.setFlagBit x i b).cells = s.cells := rfl
@[simp] theorem setFlagBit_arms (x : Fld) (i : Nat) (b : Bool) : (s.setFlagBit x i b).arms = s.arms := rfl
@[simp] theorem setFlagBit_dcal (x : Fld) (i : Nat) (b : Bool) : (s.setFlagBit x i b).dcal = s.dcal := rfl
@[simp] theorem setFlagBit_hrn (x : Fld) (i : Nat) (b : Bool) : (s.setFlagBit x i b).hrn = s.hrn := rfl
@[simp] theorem setFlagBit_hooks (x : Fld) (i : Nat) (b : Bool) : (s.setFlagBit x i b).hooks = s.hooks := rfl
@[simp] theorem setFlagBit_convs (x : Fld) (i : Nat) (b : Bool) : (s.setFlagBit x i b).convs = s.convs := rfl
@[simp] theorem setFlagBit_pairs (x : Fld) (i : Nat) (b : Bool) : (s.setFlagBit x i b).pairs = s.pairs := rfl
@[simp] theorem setFlagBit_lcw (x : Fld) (i : Nat) (b : Bool) : (s.setFlagBit x i b).lcw = s.lcw := rfl
@[simp] theorem setFlagBit_dfy (x : Fld) (i : Nat) (b : Bool) : (s.setFlagBit x i b).dfy = s.dfy := rfl
@[simp] theorem setFlagBit_ffy (x : Fld) (i : Nat) (b : Bool) : (s.setFlagBit x i b).ffy = s.ffy := rfl
@[simp] theorem setFlagBit_cores (x : Fld) (i : Nat) (b : Bool) : (s.setFlagBit x i b).cores = s.cores := rfl
@[simp] theorem setFlagBit_tasks (x : Fld) (i : Nat) (b : Bool) : (s.setFlagBit x i b).tasks = s.tasks := rfl
@[simp] theorem setFlagBit_hive (x : Fld) (i : Nat) (b : Bool) : (s.setFlagBit x i b).hive = s.hive := rfl
@[simp] theorem setFlagBit_mth (x : Fld) (i : Nat) (b : Bool) : (s.setFlagBit x i b).mth = s.mth := rfl
@[simp] theorem setFlagBit_trm (x : Fld) (i : Nat) (b : Bool) : (s.setFlagBit x i b).trm = s.trm := rfl
@[simp] theorem setFlagBit_twn (x : Fld) (i : Nat) (b : Bool) : (s.setFlagBit x i b).twn = s.twn := rfl
@[simp] theorem setFlagBit_mts (x : Fld) (i : Nat) (b : Bool) : (s.setFlagBit x i b).mts = s.mts := rfl
@[simp] theorem setFlagBit_ccd (x : Fld) (i : Nat) (b : Bool) : (s.setFlagBit x i b).ccd = s.ccd := rfl
@[simp] theorem setFlagBit_mod (x : Fld) (i : Nat) (b : Bool) : (s.setFlagBit x i b).mod = s.mod := rfl
@[simp] theorem setFlagBit_hst (x : Fld) (i : Nat) (b : Bool) : (s.setFlagBit x i b).hst = s.hst := rfl
@[simp] theorem setFlagBit_eth (x : Fld) (i : Nat) (b : Bool) : (s.setFlagBit x i b).eth = s.eth := rfl
@[simp] theorem setFlagBit_pwm (x : Fld) (i : Nat) (b : Bool) : (s.setFlagBit x i b).pwm = s.pwm := rfl
@[simp] theorem setFlagBit_free (x : Fld) (i : Nat) (b : Bool) : (s.setFlagBit x i b).free = s.free := rfl

/-! ### bump -/

@[simp] theorem bump_pending (x : Fld) (n : Nat) : (s.bump x n).pending = s.pending := rfl
@[simp] theorem bump_now (x : Fld) (n : Nat) : (s.bump x n).now = s.now := rfl
@[simp] theorem bump_eff (x : Fld) (n : Nat) : (s.bump x n).eff = s.eff := rfl
@[simp] theorem bump_hiLatch (x : Fld) (n : Nat) : (s.bump x n).hiLatch = s.hiLatch := rfl
@[simp] theorem bump_hiStage (x : Fld) (n : Nat) : (s.bump x n).hiStage = s.hiStage := rfl
@[simp] theorem bump_mem (x : Fld) (n : Nat) : (s.bump x n).mem = s.mem := rfl
@[simp] theorem bump_flash (x : Fld) (n : Nat) : (s.bump x n).flash = s.flash := rfl
@[simp] theorem bump_ecc (x : Fld) (n : Nat) : (s.bump x n).ecc = s.ecc := rfl
@[simp] theorem bump_crk (x : Fld) (n : Nat) : (s.bump x n).crk = s.crk := rfl
@[simp] theorem bump_cells (x : Fld) (n : Nat) : (s.bump x n).cells = s.cells := rfl
@[simp] theorem bump_arms (x : Fld) (n : Nat) : (s.bump x n).arms = s.arms := rfl
@[simp] theorem bump_dcal (x : Fld) (n : Nat) : (s.bump x n).dcal = s.dcal := rfl
@[simp] theorem bump_hrn (x : Fld) (n : Nat) : (s.bump x n).hrn = s.hrn := rfl
@[simp] theorem bump_hooks (x : Fld) (n : Nat) : (s.bump x n).hooks = s.hooks := rfl
@[simp] theorem bump_convs (x : Fld) (n : Nat) : (s.bump x n).convs = s.convs := rfl
@[simp] theorem bump_pairs (x : Fld) (n : Nat) : (s.bump x n).pairs = s.pairs := rfl
@[simp] theorem bump_lcw (x : Fld) (n : Nat) : (s.bump x n).lcw = s.lcw := rfl
@[simp] theorem bump_dfy (x : Fld) (n : Nat) : (s.bump x n).dfy = s.dfy := rfl
@[simp] theorem bump_ffy (x : Fld) (n : Nat) : (s.bump x n).ffy = s.ffy := rfl
@[simp] theorem bump_cores (x : Fld) (n : Nat) : (s.bump x n).cores = s.cores := rfl
@[simp] theorem bump_tasks (x : Fld) (n : Nat) : (s.bump x n).tasks = s.tasks := rfl
@[simp] theorem bump_hive (x : Fld) (n : Nat) : (s.bump x n).hive = s.hive := rfl
@[simp] theorem bump_mth (x : Fld) (n : Nat) : (s.bump x n).mth = s.mth := rfl
@[simp] theorem bump_trm (x : Fld) (n : Nat) : (s.bump x n).trm = s.trm := rfl
@[simp] theorem bump_twn (x : Fld) (n : Nat) : (s.bump x n).twn = s.twn := rfl
@[simp] theorem bump_mts (x : Fld) (n : Nat) : (s.bump x n).mts = s.mts := rfl
@[simp] theorem bump_ccd (x : Fld) (n : Nat) : (s.bump x n).ccd = s.ccd := rfl
@[simp] theorem bump_mod (x : Fld) (n : Nat) : (s.bump x n).mod = s.mod := rfl
@[simp] theorem bump_hst (x : Fld) (n : Nat) : (s.bump x n).hst = s.hst := rfl
@[simp] theorem bump_eth (x : Fld) (n : Nat) : (s.bump x n).eth = s.eth := rfl
@[simp] theorem bump_pwm (x : Fld) (n : Nat) : (s.bump x n).pwm = s.pwm := rfl
@[simp] theorem bump_free (x : Fld) (n : Nat) : (s.bump x n).free = s.free := rfl

/-! ### setFldS -/

@[simp] theorem setFldS_pending (x : Fld) (v : Int) : (s.setFldS x v).pending = s.pending := rfl
@[simp] theorem setFldS_now (x : Fld) (v : Int) : (s.setFldS x v).now = s.now := rfl
@[simp] theorem setFldS_eff (x : Fld) (v : Int) : (s.setFldS x v).eff = s.eff := rfl
@[simp] theorem setFldS_hiLatch (x : Fld) (v : Int) : (s.setFldS x v).hiLatch = s.hiLatch := rfl
@[simp] theorem setFldS_hiStage (x : Fld) (v : Int) : (s.setFldS x v).hiStage = s.hiStage := rfl
@[simp] theorem setFldS_mem (x : Fld) (v : Int) : (s.setFldS x v).mem = s.mem := rfl
@[simp] theorem setFldS_flash (x : Fld) (v : Int) : (s.setFldS x v).flash = s.flash := rfl
@[simp] theorem setFldS_ecc (x : Fld) (v : Int) : (s.setFldS x v).ecc = s.ecc := rfl
@[simp] theorem setFldS_crk (x : Fld) (v : Int) : (s.setFldS x v).crk = s.crk := rfl
@[simp] theorem setFldS_cells (x : Fld) (v : Int) : (s.setFldS x v).cells = s.cells := rfl
@[simp] theorem setFldS_arms (x : Fld) (v : Int) : (s.setFldS x v).arms = s.arms := rfl
@[simp] theorem setFldS_dcal (x : Fld) (v : Int) : (s.setFldS x v).dcal = s.dcal := rfl
@[simp] theorem setFldS_hrn (x : Fld) (v : Int) : (s.setFldS x v).hrn = s.hrn := rfl
@[simp] theorem setFldS_hooks (x : Fld) (v : Int) : (s.setFldS x v).hooks = s.hooks := rfl
@[simp] theorem setFldS_convs (x : Fld) (v : Int) : (s.setFldS x v).convs = s.convs := rfl
@[simp] theorem setFldS_pairs (x : Fld) (v : Int) : (s.setFldS x v).pairs = s.pairs := rfl
@[simp] theorem setFldS_lcw (x : Fld) (v : Int) : (s.setFldS x v).lcw = s.lcw := rfl
@[simp] theorem setFldS_dfy (x : Fld) (v : Int) : (s.setFldS x v).dfy = s.dfy := rfl
@[simp] theorem setFldS_ffy (x : Fld) (v : Int) : (s.setFldS x v).ffy = s.ffy := rfl
@[simp] theorem setFldS_cores (x : Fld) (v : Int) : (s.setFldS x v).cores = s.cores := rfl
@[simp] theorem setFldS_tasks (x : Fld) (v : Int) : (s.setFldS x v).tasks = s.tasks := rfl
@[simp] theorem setFldS_hive (x : Fld) (v : Int) : (s.setFldS x v).hive = s.hive := rfl
@[simp] theorem setFldS_mth (x : Fld) (v : Int) : (s.setFldS x v).mth = s.mth := rfl
@[simp] theorem setFldS_trm (x : Fld) (v : Int) : (s.setFldS x v).trm = s.trm := rfl
@[simp] theorem setFldS_twn (x : Fld) (v : Int) : (s.setFldS x v).twn = s.twn := rfl
@[simp] theorem setFldS_mts (x : Fld) (v : Int) : (s.setFldS x v).mts = s.mts := rfl
@[simp] theorem setFldS_ccd (x : Fld) (v : Int) : (s.setFldS x v).ccd = s.ccd := rfl
@[simp] theorem setFldS_mod (x : Fld) (v : Int) : (s.setFldS x v).mod = s.mod := rfl
@[simp] theorem setFldS_hst (x : Fld) (v : Int) : (s.setFldS x v).hst = s.hst := rfl
@[simp] theorem setFldS_eth (x : Fld) (v : Int) : (s.setFldS x v).eth = s.eth := rfl
@[simp] theorem setFldS_pwm (x : Fld) (v : Int) : (s.setFldS x v).pwm = s.pwm := rfl
@[simp] theorem setFldS_free (x : Fld) (v : Int) : (s.setFldS x v).free = s.free := rfl

/-! ### setReg64 -/

@[simp] theorem setReg64_pending (a : Nat) (v : BitVec 64) : (s.setReg64 a v).pending = s.pending := rfl
@[simp] theorem setReg64_now (a : Nat) (v : BitVec 64) : (s.setReg64 a v).now = s.now := rfl
@[simp] theorem setReg64_eff (a : Nat) (v : BitVec 64) : (s.setReg64 a v).eff = s.eff := rfl
@[simp] theorem setReg64_hiLatch (a : Nat) (v : BitVec 64) : (s.setReg64 a v).hiLatch = s.hiLatch := rfl
@[simp] theorem setReg64_hiStage (a : Nat) (v : BitVec 64) : (s.setReg64 a v).hiStage = s.hiStage := rfl
@[simp] theorem setReg64_mem (a : Nat) (v : BitVec 64) : (s.setReg64 a v).mem = s.mem := rfl
@[simp] theorem setReg64_flash (a : Nat) (v : BitVec 64) : (s.setReg64 a v).flash = s.flash := rfl
@[simp] theorem setReg64_ecc (a : Nat) (v : BitVec 64) : (s.setReg64 a v).ecc = s.ecc := rfl
@[simp] theorem setReg64_crk (a : Nat) (v : BitVec 64) : (s.setReg64 a v).crk = s.crk := rfl
@[simp] theorem setReg64_cells (a : Nat) (v : BitVec 64) : (s.setReg64 a v).cells = s.cells := rfl
@[simp] theorem setReg64_arms (a : Nat) (v : BitVec 64) : (s.setReg64 a v).arms = s.arms := rfl
@[simp] theorem setReg64_dcal (a : Nat) (v : BitVec 64) : (s.setReg64 a v).dcal = s.dcal := rfl
@[simp] theorem setReg64_hrn (a : Nat) (v : BitVec 64) : (s.setReg64 a v).hrn = s.hrn := rfl
@[simp] theorem setReg64_hooks (a : Nat) (v : BitVec 64) : (s.setReg64 a v).hooks = s.hooks := rfl
@[simp] theorem setReg64_convs (a : Nat) (v : BitVec 64) : (s.setReg64 a v).convs = s.convs := rfl
@[simp] theorem setReg64_pairs (a : Nat) (v : BitVec 64) : (s.setReg64 a v).pairs = s.pairs := rfl
@[simp] theorem setReg64_lcw (a : Nat) (v : BitVec 64) : (s.setReg64 a v).lcw = s.lcw := rfl
@[simp] theorem setReg64_dfy (a : Nat) (v : BitVec 64) : (s.setReg64 a v).dfy = s.dfy := rfl
@[simp] theorem setReg64_ffy (a : Nat) (v : BitVec 64) : (s.setReg64 a v).ffy = s.ffy := rfl
@[simp] theorem setReg64_cores (a : Nat) (v : BitVec 64) : (s.setReg64 a v).cores = s.cores := rfl
@[simp] theorem setReg64_tasks (a : Nat) (v : BitVec 64) : (s.setReg64 a v).tasks = s.tasks := rfl
@[simp] theorem setReg64_hive (a : Nat) (v : BitVec 64) : (s.setReg64 a v).hive = s.hive := rfl
@[simp] theorem setReg64_mth (a : Nat) (v : BitVec 64) : (s.setReg64 a v).mth = s.mth := rfl
@[simp] theorem setReg64_trm (a : Nat) (v : BitVec 64) : (s.setReg64 a v).trm = s.trm := rfl
@[simp] theorem setReg64_twn (a : Nat) (v : BitVec 64) : (s.setReg64 a v).twn = s.twn := rfl
@[simp] theorem setReg64_mts (a : Nat) (v : BitVec 64) : (s.setReg64 a v).mts = s.mts := rfl
@[simp] theorem setReg64_ccd (a : Nat) (v : BitVec 64) : (s.setReg64 a v).ccd = s.ccd := rfl
@[simp] theorem setReg64_mod (a : Nat) (v : BitVec 64) : (s.setReg64 a v).mod = s.mod := rfl
@[simp] theorem setReg64_hst (a : Nat) (v : BitVec 64) : (s.setReg64 a v).hst = s.hst := rfl
@[simp] theorem setReg64_eth (a : Nat) (v : BitVec 64) : (s.setReg64 a v).eth = s.eth := rfl
@[simp] theorem setReg64_pwm (a : Nat) (v : BitVec 64) : (s.setReg64 a v).pwm = s.pwm := rfl
@[simp] theorem setReg64_free (a : Nat) (v : BitVec 64) : (s.setReg64 a v).free = s.free := rfl

/-! ### vector -/

@[simp] theorem vector_pending (v : Nat) : (s.vector v).pending = s.pending := rfl
@[simp] theorem vector_now (v : Nat) : (s.vector v).now = s.now := rfl
@[simp] theorem vector_eff (v : Nat) : (s.vector v).eff = s.eff := rfl
@[simp] theorem vector_hiLatch (v : Nat) : (s.vector v).hiLatch = s.hiLatch := rfl
@[simp] theorem vector_hiStage (v : Nat) : (s.vector v).hiStage = s.hiStage := rfl
@[simp] theorem vector_mem (v : Nat) : (s.vector v).mem = s.mem := rfl
@[simp] theorem vector_flash (v : Nat) : (s.vector v).flash = s.flash := rfl
@[simp] theorem vector_ecc (v : Nat) : (s.vector v).ecc = s.ecc := rfl
@[simp] theorem vector_crk (v : Nat) : (s.vector v).crk = s.crk := rfl
@[simp] theorem vector_cells (v : Nat) : (s.vector v).cells = s.cells := rfl
@[simp] theorem vector_arms (v : Nat) : (s.vector v).arms = s.arms := rfl
@[simp] theorem vector_dcal (v : Nat) : (s.vector v).dcal = s.dcal := rfl
@[simp] theorem vector_hrn (v : Nat) : (s.vector v).hrn = s.hrn := rfl
@[simp] theorem vector_hooks (v : Nat) : (s.vector v).hooks = s.hooks := rfl
@[simp] theorem vector_convs (v : Nat) : (s.vector v).convs = s.convs := rfl
@[simp] theorem vector_pairs (v : Nat) : (s.vector v).pairs = s.pairs := rfl
@[simp] theorem vector_lcw (v : Nat) : (s.vector v).lcw = s.lcw := rfl
@[simp] theorem vector_dfy (v : Nat) : (s.vector v).dfy = s.dfy := rfl
@[simp] theorem vector_ffy (v : Nat) : (s.vector v).ffy = s.ffy := rfl
@[simp] theorem vector_cores (v : Nat) : (s.vector v).cores = s.cores := rfl
@[simp] theorem vector_tasks (v : Nat) : (s.vector v).tasks = s.tasks := rfl
@[simp] theorem vector_hive (v : Nat) : (s.vector v).hive = s.hive := rfl
@[simp] theorem vector_mth (v : Nat) : (s.vector v).mth = s.mth := rfl
@[simp] theorem vector_trm (v : Nat) : (s.vector v).trm = s.trm := rfl
@[simp] theorem vector_twn (v : Nat) : (s.vector v).twn = s.twn := rfl
@[simp] theorem vector_mts (v : Nat) : (s.vector v).mts = s.mts := rfl
@[simp] theorem vector_ccd (v : Nat) : (s.vector v).ccd = s.ccd := rfl
@[simp] theorem vector_mod (v : Nat) : (s.vector v).mod = s.mod := rfl
@[simp] theorem vector_hst (v : Nat) : (s.vector v).hst = s.hst := rfl
@[simp] theorem vector_eth (v : Nat) : (s.vector v).eth = s.eth := rfl
@[simp] theorem vector_pwm (v : Nat) : (s.vector v).pwm = s.pwm := rfl
@[simp] theorem vector_free (v : Nat) : (s.vector v).free = s.free := rfl

/-! ### setCell -/

@[simp] theorem setCell_pending (i : Nat) (c : CellSt) : (s.setCell i c).pending = s.pending := rfl
@[simp] theorem setCell_now (i : Nat) (c : CellSt) : (s.setCell i c).now = s.now := rfl
@[simp] theorem setCell_regs (i : Nat) (c : CellSt) : (s.setCell i c).regs = s.regs := rfl
@[simp] theorem setCell_eff (i : Nat) (c : CellSt) : (s.setCell i c).eff = s.eff := rfl
@[simp] theorem setCell_hiLatch (i : Nat) (c : CellSt) : (s.setCell i c).hiLatch = s.hiLatch := rfl
@[simp] theorem setCell_hiStage (i : Nat) (c : CellSt) : (s.setCell i c).hiStage = s.hiStage := rfl
@[simp] theorem setCell_mem (i : Nat) (c : CellSt) : (s.setCell i c).mem = s.mem := rfl
@[simp] theorem setCell_flash (i : Nat) (c : CellSt) : (s.setCell i c).flash = s.flash := rfl
@[simp] theorem setCell_ecc (i : Nat) (c : CellSt) : (s.setCell i c).ecc = s.ecc := rfl
@[simp] theorem setCell_crk (i : Nat) (c : CellSt) : (s.setCell i c).crk = s.crk := rfl
@[simp] theorem setCell_arms (i : Nat) (c : CellSt) : (s.setCell i c).arms = s.arms := rfl
@[simp] theorem setCell_dcal (i : Nat) (c : CellSt) : (s.setCell i c).dcal = s.dcal := rfl
@[simp] theorem setCell_hrn (i : Nat) (c : CellSt) : (s.setCell i c).hrn = s.hrn := rfl
@[simp] theorem setCell_hooks (i : Nat) (c : CellSt) : (s.setCell i c).hooks = s.hooks := rfl
@[simp] theorem setCell_convs (i : Nat) (c : CellSt) : (s.setCell i c).convs = s.convs := rfl
@[simp] theorem setCell_pairs (i : Nat) (c : CellSt) : (s.setCell i c).pairs = s.pairs := rfl
@[simp] theorem setCell_lcw (i : Nat) (c : CellSt) : (s.setCell i c).lcw = s.lcw := rfl
@[simp] theorem setCell_dfy (i : Nat) (c : CellSt) : (s.setCell i c).dfy = s.dfy := rfl
@[simp] theorem setCell_ffy (i : Nat) (c : CellSt) : (s.setCell i c).ffy = s.ffy := rfl
@[simp] theorem setCell_cores (i : Nat) (c : CellSt) : (s.setCell i c).cores = s.cores := rfl
@[simp] theorem setCell_tasks (i : Nat) (c : CellSt) : (s.setCell i c).tasks = s.tasks := rfl
@[simp] theorem setCell_hive (i : Nat) (c : CellSt) : (s.setCell i c).hive = s.hive := rfl
@[simp] theorem setCell_mth (i : Nat) (c : CellSt) : (s.setCell i c).mth = s.mth := rfl
@[simp] theorem setCell_trm (i : Nat) (c : CellSt) : (s.setCell i c).trm = s.trm := rfl
@[simp] theorem setCell_twn (i : Nat) (c : CellSt) : (s.setCell i c).twn = s.twn := rfl
@[simp] theorem setCell_mts (i : Nat) (c : CellSt) : (s.setCell i c).mts = s.mts := rfl
@[simp] theorem setCell_ccd (i : Nat) (c : CellSt) : (s.setCell i c).ccd = s.ccd := rfl
@[simp] theorem setCell_mod (i : Nat) (c : CellSt) : (s.setCell i c).mod = s.mod := rfl
@[simp] theorem setCell_hst (i : Nat) (c : CellSt) : (s.setCell i c).hst = s.hst := rfl
@[simp] theorem setCell_eth (i : Nat) (c : CellSt) : (s.setCell i c).eth = s.eth := rfl
@[simp] theorem setCell_pwm (i : Nat) (c : CellSt) : (s.setCell i c).pwm = s.pwm := rfl
@[simp] theorem setCell_free (i : Nat) (c : CellSt) : (s.setCell i c).free = s.free := rfl

/-! ### setArm -/

@[simp] theorem setArm_pending (n : Nat) (x : ArmSt) : (s.setArm n x).pending = s.pending := rfl
@[simp] theorem setArm_now (n : Nat) (x : ArmSt) : (s.setArm n x).now = s.now := rfl
@[simp] theorem setArm_regs (n : Nat) (x : ArmSt) : (s.setArm n x).regs = s.regs := rfl
@[simp] theorem setArm_eff (n : Nat) (x : ArmSt) : (s.setArm n x).eff = s.eff := rfl
@[simp] theorem setArm_hiLatch (n : Nat) (x : ArmSt) : (s.setArm n x).hiLatch = s.hiLatch := rfl
@[simp] theorem setArm_hiStage (n : Nat) (x : ArmSt) : (s.setArm n x).hiStage = s.hiStage := rfl
@[simp] theorem setArm_mem (n : Nat) (x : ArmSt) : (s.setArm n x).mem = s.mem := rfl
@[simp] theorem setArm_flash (n : Nat) (x : ArmSt) : (s.setArm n x).flash = s.flash := rfl
@[simp] theorem setArm_ecc (n : Nat) (x : ArmSt) : (s.setArm n x).ecc = s.ecc := rfl
@[simp] theorem setArm_crk (n : Nat) (x : ArmSt) : (s.setArm n x).crk = s.crk := rfl
@[simp] theorem setArm_cells (n : Nat) (x : ArmSt) : (s.setArm n x).cells = s.cells := rfl
@[simp] theorem setArm_dcal (n : Nat) (x : ArmSt) : (s.setArm n x).dcal = s.dcal := rfl
@[simp] theorem setArm_hrn (n : Nat) (x : ArmSt) : (s.setArm n x).hrn = s.hrn := rfl
@[simp] theorem setArm_hooks (n : Nat) (x : ArmSt) : (s.setArm n x).hooks = s.hooks := rfl
@[simp] theorem setArm_convs (n : Nat) (x : ArmSt) : (s.setArm n x).convs = s.convs := rfl
@[simp] theorem setArm_pairs (n : Nat) (x : ArmSt) : (s.setArm n x).pairs = s.pairs := rfl
@[simp] theorem setArm_lcw (n : Nat) (x : ArmSt) : (s.setArm n x).lcw = s.lcw := rfl
@[simp] theorem setArm_dfy (n : Nat) (x : ArmSt) : (s.setArm n x).dfy = s.dfy := rfl
@[simp] theorem setArm_ffy (n : Nat) (x : ArmSt) : (s.setArm n x).ffy = s.ffy := rfl
@[simp] theorem setArm_cores (n : Nat) (x : ArmSt) : (s.setArm n x).cores = s.cores := rfl
@[simp] theorem setArm_tasks (n : Nat) (x : ArmSt) : (s.setArm n x).tasks = s.tasks := rfl
@[simp] theorem setArm_hive (n : Nat) (x : ArmSt) : (s.setArm n x).hive = s.hive := rfl
@[simp] theorem setArm_mth (n : Nat) (x : ArmSt) : (s.setArm n x).mth = s.mth := rfl
@[simp] theorem setArm_trm (n : Nat) (x : ArmSt) : (s.setArm n x).trm = s.trm := rfl
@[simp] theorem setArm_twn (n : Nat) (x : ArmSt) : (s.setArm n x).twn = s.twn := rfl
@[simp] theorem setArm_mts (n : Nat) (x : ArmSt) : (s.setArm n x).mts = s.mts := rfl
@[simp] theorem setArm_ccd (n : Nat) (x : ArmSt) : (s.setArm n x).ccd = s.ccd := rfl
@[simp] theorem setArm_mod (n : Nat) (x : ArmSt) : (s.setArm n x).mod = s.mod := rfl
@[simp] theorem setArm_hst (n : Nat) (x : ArmSt) : (s.setArm n x).hst = s.hst := rfl
@[simp] theorem setArm_eth (n : Nat) (x : ArmSt) : (s.setArm n x).eth = s.eth := rfl
@[simp] theorem setArm_pwm (n : Nat) (x : ArmSt) : (s.setArm n x).pwm = s.pwm := rfl
@[simp] theorem setArm_free (n : Nat) (x : ArmSt) : (s.setArm n x).free = s.free := rfl

/-! ### setConv -/

@[simp] theorem setConv_pending (c : Nat) (v : ConvSt) : (s.setConv c v).pending = s.pending := rfl
@[simp] theorem setConv_now (c : Nat) (v : ConvSt) : (s.setConv c v).now = s.now := rfl
@[simp] theorem setConv_regs (c : Nat) (v : ConvSt) : (s.setConv c v).regs = s.regs := rfl
@[simp] theorem setConv_eff (c : Nat) (v : ConvSt) : (s.setConv c v).eff = s.eff := rfl
@[simp] theorem setConv_hiLatch (c : Nat) (v : ConvSt) : (s.setConv c v).hiLatch = s.hiLatch := rfl
@[simp] theorem setConv_hiStage (c : Nat) (v : ConvSt) : (s.setConv c v).hiStage = s.hiStage := rfl
@[simp] theorem setConv_mem (c : Nat) (v : ConvSt) : (s.setConv c v).mem = s.mem := rfl
@[simp] theorem setConv_flash (c : Nat) (v : ConvSt) : (s.setConv c v).flash = s.flash := rfl
@[simp] theorem setConv_ecc (c : Nat) (v : ConvSt) : (s.setConv c v).ecc = s.ecc := rfl
@[simp] theorem setConv_crk (c : Nat) (v : ConvSt) : (s.setConv c v).crk = s.crk := rfl
@[simp] theorem setConv_cells (c : Nat) (v : ConvSt) : (s.setConv c v).cells = s.cells := rfl
@[simp] theorem setConv_arms (c : Nat) (v : ConvSt) : (s.setConv c v).arms = s.arms := rfl
@[simp] theorem setConv_dcal (c : Nat) (v : ConvSt) : (s.setConv c v).dcal = s.dcal := rfl
@[simp] theorem setConv_hrn (c : Nat) (v : ConvSt) : (s.setConv c v).hrn = s.hrn := rfl
@[simp] theorem setConv_hooks (c : Nat) (v : ConvSt) : (s.setConv c v).hooks = s.hooks := rfl
@[simp] theorem setConv_pairs (c : Nat) (v : ConvSt) : (s.setConv c v).pairs = s.pairs := rfl
@[simp] theorem setConv_lcw (c : Nat) (v : ConvSt) : (s.setConv c v).lcw = s.lcw := rfl
@[simp] theorem setConv_dfy (c : Nat) (v : ConvSt) : (s.setConv c v).dfy = s.dfy := rfl
@[simp] theorem setConv_ffy (c : Nat) (v : ConvSt) : (s.setConv c v).ffy = s.ffy := rfl
@[simp] theorem setConv_cores (c : Nat) (v : ConvSt) : (s.setConv c v).cores = s.cores := rfl
@[simp] theorem setConv_tasks (c : Nat) (v : ConvSt) : (s.setConv c v).tasks = s.tasks := rfl
@[simp] theorem setConv_hive (c : Nat) (v : ConvSt) : (s.setConv c v).hive = s.hive := rfl
@[simp] theorem setConv_mth (c : Nat) (v : ConvSt) : (s.setConv c v).mth = s.mth := rfl
@[simp] theorem setConv_trm (c : Nat) (v : ConvSt) : (s.setConv c v).trm = s.trm := rfl
@[simp] theorem setConv_twn (c : Nat) (v : ConvSt) : (s.setConv c v).twn = s.twn := rfl
@[simp] theorem setConv_mts (c : Nat) (v : ConvSt) : (s.setConv c v).mts = s.mts := rfl
@[simp] theorem setConv_ccd (c : Nat) (v : ConvSt) : (s.setConv c v).ccd = s.ccd := rfl
@[simp] theorem setConv_mod (c : Nat) (v : ConvSt) : (s.setConv c v).mod = s.mod := rfl
@[simp] theorem setConv_hst (c : Nat) (v : ConvSt) : (s.setConv c v).hst = s.hst := rfl
@[simp] theorem setConv_eth (c : Nat) (v : ConvSt) : (s.setConv c v).eth = s.eth := rfl
@[simp] theorem setConv_pwm (c : Nat) (v : ConvSt) : (s.setConv c v).pwm = s.pwm := rfl
@[simp] theorem setConv_free (c : Nat) (v : ConvSt) : (s.setConv c v).free = s.free := rfl

/-! ### setPair -/

@[simp] theorem setPair_pending (k : Nat) (v : PairSt) : (s.setPair k v).pending = s.pending := rfl
@[simp] theorem setPair_now (k : Nat) (v : PairSt) : (s.setPair k v).now = s.now := rfl
@[simp] theorem setPair_regs (k : Nat) (v : PairSt) : (s.setPair k v).regs = s.regs := rfl
@[simp] theorem setPair_eff (k : Nat) (v : PairSt) : (s.setPair k v).eff = s.eff := rfl
@[simp] theorem setPair_hiLatch (k : Nat) (v : PairSt) : (s.setPair k v).hiLatch = s.hiLatch := rfl
@[simp] theorem setPair_hiStage (k : Nat) (v : PairSt) : (s.setPair k v).hiStage = s.hiStage := rfl
@[simp] theorem setPair_mem (k : Nat) (v : PairSt) : (s.setPair k v).mem = s.mem := rfl
@[simp] theorem setPair_flash (k : Nat) (v : PairSt) : (s.setPair k v).flash = s.flash := rfl
@[simp] theorem setPair_ecc (k : Nat) (v : PairSt) : (s.setPair k v).ecc = s.ecc := rfl
@[simp] theorem setPair_crk (k : Nat) (v : PairSt) : (s.setPair k v).crk = s.crk := rfl
@[simp] theorem setPair_cells (k : Nat) (v : PairSt) : (s.setPair k v).cells = s.cells := rfl
@[simp] theorem setPair_arms (k : Nat) (v : PairSt) : (s.setPair k v).arms = s.arms := rfl
@[simp] theorem setPair_dcal (k : Nat) (v : PairSt) : (s.setPair k v).dcal = s.dcal := rfl
@[simp] theorem setPair_hrn (k : Nat) (v : PairSt) : (s.setPair k v).hrn = s.hrn := rfl
@[simp] theorem setPair_hooks (k : Nat) (v : PairSt) : (s.setPair k v).hooks = s.hooks := rfl
@[simp] theorem setPair_convs (k : Nat) (v : PairSt) : (s.setPair k v).convs = s.convs := rfl
@[simp] theorem setPair_lcw (k : Nat) (v : PairSt) : (s.setPair k v).lcw = s.lcw := rfl
@[simp] theorem setPair_dfy (k : Nat) (v : PairSt) : (s.setPair k v).dfy = s.dfy := rfl
@[simp] theorem setPair_ffy (k : Nat) (v : PairSt) : (s.setPair k v).ffy = s.ffy := rfl
@[simp] theorem setPair_cores (k : Nat) (v : PairSt) : (s.setPair k v).cores = s.cores := rfl
@[simp] theorem setPair_tasks (k : Nat) (v : PairSt) : (s.setPair k v).tasks = s.tasks := rfl
@[simp] theorem setPair_hive (k : Nat) (v : PairSt) : (s.setPair k v).hive = s.hive := rfl
@[simp] theorem setPair_mth (k : Nat) (v : PairSt) : (s.setPair k v).mth = s.mth := rfl
@[simp] theorem setPair_trm (k : Nat) (v : PairSt) : (s.setPair k v).trm = s.trm := rfl
@[simp] theorem setPair_twn (k : Nat) (v : PairSt) : (s.setPair k v).twn = s.twn := rfl
@[simp] theorem setPair_mts (k : Nat) (v : PairSt) : (s.setPair k v).mts = s.mts := rfl
@[simp] theorem setPair_ccd (k : Nat) (v : PairSt) : (s.setPair k v).ccd = s.ccd := rfl
@[simp] theorem setPair_mod (k : Nat) (v : PairSt) : (s.setPair k v).mod = s.mod := rfl
@[simp] theorem setPair_hst (k : Nat) (v : PairSt) : (s.setPair k v).hst = s.hst := rfl
@[simp] theorem setPair_eth (k : Nat) (v : PairSt) : (s.setPair k v).eth = s.eth := rfl
@[simp] theorem setPair_pwm (k : Nat) (v : PairSt) : (s.setPair k v).pwm = s.pwm := rfl
@[simp] theorem setPair_free (k : Nat) (v : PairSt) : (s.setPair k v).free = s.free := rfl

/-! ### setLslot -/

@[simp] theorem setLslot_pending (k : Nat) (v : LcwSlot) : (s.setLslot k v).pending = s.pending := rfl
@[simp] theorem setLslot_now (k : Nat) (v : LcwSlot) : (s.setLslot k v).now = s.now := rfl
@[simp] theorem setLslot_regs (k : Nat) (v : LcwSlot) : (s.setLslot k v).regs = s.regs := rfl
@[simp] theorem setLslot_eff (k : Nat) (v : LcwSlot) : (s.setLslot k v).eff = s.eff := rfl
@[simp] theorem setLslot_hiLatch (k : Nat) (v : LcwSlot) : (s.setLslot k v).hiLatch = s.hiLatch := rfl
@[simp] theorem setLslot_hiStage (k : Nat) (v : LcwSlot) : (s.setLslot k v).hiStage = s.hiStage := rfl
@[simp] theorem setLslot_mem (k : Nat) (v : LcwSlot) : (s.setLslot k v).mem = s.mem := rfl
@[simp] theorem setLslot_flash (k : Nat) (v : LcwSlot) : (s.setLslot k v).flash = s.flash := rfl
@[simp] theorem setLslot_ecc (k : Nat) (v : LcwSlot) : (s.setLslot k v).ecc = s.ecc := rfl
@[simp] theorem setLslot_crk (k : Nat) (v : LcwSlot) : (s.setLslot k v).crk = s.crk := rfl
@[simp] theorem setLslot_cells (k : Nat) (v : LcwSlot) : (s.setLslot k v).cells = s.cells := rfl
@[simp] theorem setLslot_arms (k : Nat) (v : LcwSlot) : (s.setLslot k v).arms = s.arms := rfl
@[simp] theorem setLslot_dcal (k : Nat) (v : LcwSlot) : (s.setLslot k v).dcal = s.dcal := rfl
@[simp] theorem setLslot_hrn (k : Nat) (v : LcwSlot) : (s.setLslot k v).hrn = s.hrn := rfl
@[simp] theorem setLslot_hooks (k : Nat) (v : LcwSlot) : (s.setLslot k v).hooks = s.hooks := rfl
@[simp] theorem setLslot_convs (k : Nat) (v : LcwSlot) : (s.setLslot k v).convs = s.convs := rfl
@[simp] theorem setLslot_pairs (k : Nat) (v : LcwSlot) : (s.setLslot k v).pairs = s.pairs := rfl
@[simp] theorem setLslot_dfy (k : Nat) (v : LcwSlot) : (s.setLslot k v).dfy = s.dfy := rfl
@[simp] theorem setLslot_ffy (k : Nat) (v : LcwSlot) : (s.setLslot k v).ffy = s.ffy := rfl
@[simp] theorem setLslot_cores (k : Nat) (v : LcwSlot) : (s.setLslot k v).cores = s.cores := rfl
@[simp] theorem setLslot_tasks (k : Nat) (v : LcwSlot) : (s.setLslot k v).tasks = s.tasks := rfl
@[simp] theorem setLslot_hive (k : Nat) (v : LcwSlot) : (s.setLslot k v).hive = s.hive := rfl
@[simp] theorem setLslot_mth (k : Nat) (v : LcwSlot) : (s.setLslot k v).mth = s.mth := rfl
@[simp] theorem setLslot_trm (k : Nat) (v : LcwSlot) : (s.setLslot k v).trm = s.trm := rfl
@[simp] theorem setLslot_twn (k : Nat) (v : LcwSlot) : (s.setLslot k v).twn = s.twn := rfl
@[simp] theorem setLslot_mts (k : Nat) (v : LcwSlot) : (s.setLslot k v).mts = s.mts := rfl
@[simp] theorem setLslot_ccd (k : Nat) (v : LcwSlot) : (s.setLslot k v).ccd = s.ccd := rfl
@[simp] theorem setLslot_mod (k : Nat) (v : LcwSlot) : (s.setLslot k v).mod = s.mod := rfl
@[simp] theorem setLslot_hst (k : Nat) (v : LcwSlot) : (s.setLslot k v).hst = s.hst := rfl
@[simp] theorem setLslot_eth (k : Nat) (v : LcwSlot) : (s.setLslot k v).eth = s.eth := rfl
@[simp] theorem setLslot_pwm (k : Nat) (v : LcwSlot) : (s.setLslot k v).pwm = s.pwm := rfl
@[simp] theorem setLslot_free (k : Nat) (v : LcwSlot) : (s.setLslot k v).free = s.free := rfl

/-! ### setHook -/

@[simp] theorem setHook_pending (n : Nat) (v : VecSt) : (s.setHook n v).pending = s.pending := rfl
@[simp] theorem setHook_now (n : Nat) (v : VecSt) : (s.setHook n v).now = s.now := rfl
@[simp] theorem setHook_regs (n : Nat) (v : VecSt) : (s.setHook n v).regs = s.regs := rfl
@[simp] theorem setHook_eff (n : Nat) (v : VecSt) : (s.setHook n v).eff = s.eff := rfl
@[simp] theorem setHook_hiLatch (n : Nat) (v : VecSt) : (s.setHook n v).hiLatch = s.hiLatch := rfl
@[simp] theorem setHook_hiStage (n : Nat) (v : VecSt) : (s.setHook n v).hiStage = s.hiStage := rfl
@[simp] theorem setHook_mem (n : Nat) (v : VecSt) : (s.setHook n v).mem = s.mem := rfl
@[simp] theorem setHook_flash (n : Nat) (v : VecSt) : (s.setHook n v).flash = s.flash := rfl
@[simp] theorem setHook_ecc (n : Nat) (v : VecSt) : (s.setHook n v).ecc = s.ecc := rfl
@[simp] theorem setHook_crk (n : Nat) (v : VecSt) : (s.setHook n v).crk = s.crk := rfl
@[simp] theorem setHook_cells (n : Nat) (v : VecSt) : (s.setHook n v).cells = s.cells := rfl
@[simp] theorem setHook_arms (n : Nat) (v : VecSt) : (s.setHook n v).arms = s.arms := rfl
@[simp] theorem setHook_dcal (n : Nat) (v : VecSt) : (s.setHook n v).dcal = s.dcal := rfl
@[simp] theorem setHook_hrn (n : Nat) (v : VecSt) : (s.setHook n v).hrn = s.hrn := rfl
@[simp] theorem setHook_convs (n : Nat) (v : VecSt) : (s.setHook n v).convs = s.convs := rfl
@[simp] theorem setHook_pairs (n : Nat) (v : VecSt) : (s.setHook n v).pairs = s.pairs := rfl
@[simp] theorem setHook_lcw (n : Nat) (v : VecSt) : (s.setHook n v).lcw = s.lcw := rfl
@[simp] theorem setHook_dfy (n : Nat) (v : VecSt) : (s.setHook n v).dfy = s.dfy := rfl
@[simp] theorem setHook_ffy (n : Nat) (v : VecSt) : (s.setHook n v).ffy = s.ffy := rfl
@[simp] theorem setHook_cores (n : Nat) (v : VecSt) : (s.setHook n v).cores = s.cores := rfl
@[simp] theorem setHook_tasks (n : Nat) (v : VecSt) : (s.setHook n v).tasks = s.tasks := rfl
@[simp] theorem setHook_hive (n : Nat) (v : VecSt) : (s.setHook n v).hive = s.hive := rfl
@[simp] theorem setHook_mth (n : Nat) (v : VecSt) : (s.setHook n v).mth = s.mth := rfl
@[simp] theorem setHook_trm (n : Nat) (v : VecSt) : (s.setHook n v).trm = s.trm := rfl
@[simp] theorem setHook_twn (n : Nat) (v : VecSt) : (s.setHook n v).twn = s.twn := rfl
@[simp] theorem setHook_mts (n : Nat) (v : VecSt) : (s.setHook n v).mts = s.mts := rfl
@[simp] theorem setHook_ccd (n : Nat) (v : VecSt) : (s.setHook n v).ccd = s.ccd := rfl
@[simp] theorem setHook_mod (n : Nat) (v : VecSt) : (s.setHook n v).mod = s.mod := rfl
@[simp] theorem setHook_hst (n : Nat) (v : VecSt) : (s.setHook n v).hst = s.hst := rfl
@[simp] theorem setHook_eth (n : Nat) (v : VecSt) : (s.setHook n v).eth = s.eth := rfl
@[simp] theorem setHook_pwm (n : Nat) (v : VecSt) : (s.setHook n v).pwm = s.pwm := rfl
@[simp] theorem setHook_free (n : Nat) (v : VecSt) : (s.setHook n v).free = s.free := rfl

/-! ### setLane -/

@[simp] theorem setLane_pending (p l : Nat) (v : LaneSt) : (s.setLane p l v).pending = s.pending := rfl
@[simp] theorem setLane_now (p l : Nat) (v : LaneSt) : (s.setLane p l v).now = s.now := rfl
@[simp] theorem setLane_regs (p l : Nat) (v : LaneSt) : (s.setLane p l v).regs = s.regs := rfl
@[simp] theorem setLane_eff (p l : Nat) (v : LaneSt) : (s.setLane p l v).eff = s.eff := rfl
@[simp] theorem setLane_hiLatch (p l : Nat) (v : LaneSt) : (s.setLane p l v).hiLatch = s.hiLatch := rfl
@[simp] theorem setLane_hiStage (p l : Nat) (v : LaneSt) : (s.setLane p l v).hiStage = s.hiStage := rfl
@[simp] theorem setLane_mem (p l : Nat) (v : LaneSt) : (s.setLane p l v).mem = s.mem := rfl
@[simp] theorem setLane_flash (p l : Nat) (v : LaneSt) : (s.setLane p l v).flash = s.flash := rfl
@[simp] theorem setLane_ecc (p l : Nat) (v : LaneSt) : (s.setLane p l v).ecc = s.ecc := rfl
@[simp] theorem setLane_crk (p l : Nat) (v : LaneSt) : (s.setLane p l v).crk = s.crk := rfl
@[simp] theorem setLane_cells (p l : Nat) (v : LaneSt) : (s.setLane p l v).cells = s.cells := rfl
@[simp] theorem setLane_arms (p l : Nat) (v : LaneSt) : (s.setLane p l v).arms = s.arms := rfl
@[simp] theorem setLane_dcal (p l : Nat) (v : LaneSt) : (s.setLane p l v).dcal = s.dcal := rfl
@[simp] theorem setLane_hrn (p l : Nat) (v : LaneSt) : (s.setLane p l v).hrn = s.hrn := rfl
@[simp] theorem setLane_hooks (p l : Nat) (v : LaneSt) : (s.setLane p l v).hooks = s.hooks := rfl
@[simp] theorem setLane_convs (p l : Nat) (v : LaneSt) : (s.setLane p l v).convs = s.convs := rfl
@[simp] theorem setLane_pairs (p l : Nat) (v : LaneSt) : (s.setLane p l v).pairs = s.pairs := rfl
@[simp] theorem setLane_lcw (p l : Nat) (v : LaneSt) : (s.setLane p l v).lcw = s.lcw := rfl
@[simp] theorem setLane_ffy (p l : Nat) (v : LaneSt) : (s.setLane p l v).ffy = s.ffy := rfl
@[simp] theorem setLane_cores (p l : Nat) (v : LaneSt) : (s.setLane p l v).cores = s.cores := rfl
@[simp] theorem setLane_tasks (p l : Nat) (v : LaneSt) : (s.setLane p l v).tasks = s.tasks := rfl
@[simp] theorem setLane_hive (p l : Nat) (v : LaneSt) : (s.setLane p l v).hive = s.hive := rfl
@[simp] theorem setLane_mth (p l : Nat) (v : LaneSt) : (s.setLane p l v).mth = s.mth := rfl
@[simp] theorem setLane_trm (p l : Nat) (v : LaneSt) : (s.setLane p l v).trm = s.trm := rfl
@[simp] theorem setLane_twn (p l : Nat) (v : LaneSt) : (s.setLane p l v).twn = s.twn := rfl
@[simp] theorem setLane_mts (p l : Nat) (v : LaneSt) : (s.setLane p l v).mts = s.mts := rfl
@[simp] theorem setLane_ccd (p l : Nat) (v : LaneSt) : (s.setLane p l v).ccd = s.ccd := rfl
@[simp] theorem setLane_mod (p l : Nat) (v : LaneSt) : (s.setLane p l v).mod = s.mod := rfl
@[simp] theorem setLane_hst (p l : Nat) (v : LaneSt) : (s.setLane p l v).hst = s.hst := rfl
@[simp] theorem setLane_eth (p l : Nat) (v : LaneSt) : (s.setLane p l v).eth = s.eth := rfl
@[simp] theorem setLane_pwm (p l : Nat) (v : LaneSt) : (s.setLane p l v).pwm = s.pwm := rfl
@[simp] theorem setLane_free (p l : Nat) (v : LaneSt) : (s.setLane p l v).free = s.free := rfl

/-! ### setImp -/

@[simp] theorem setImp_pending (p : Nat) (v : ImpSt) : (s.setImp p v).pending = s.pending := rfl
@[simp] theorem setImp_now (p : Nat) (v : ImpSt) : (s.setImp p v).now = s.now := rfl
@[simp] theorem setImp_regs (p : Nat) (v : ImpSt) : (s.setImp p v).regs = s.regs := rfl
@[simp] theorem setImp_eff (p : Nat) (v : ImpSt) : (s.setImp p v).eff = s.eff := rfl
@[simp] theorem setImp_hiLatch (p : Nat) (v : ImpSt) : (s.setImp p v).hiLatch = s.hiLatch := rfl
@[simp] theorem setImp_hiStage (p : Nat) (v : ImpSt) : (s.setImp p v).hiStage = s.hiStage := rfl
@[simp] theorem setImp_mem (p : Nat) (v : ImpSt) : (s.setImp p v).mem = s.mem := rfl
@[simp] theorem setImp_flash (p : Nat) (v : ImpSt) : (s.setImp p v).flash = s.flash := rfl
@[simp] theorem setImp_ecc (p : Nat) (v : ImpSt) : (s.setImp p v).ecc = s.ecc := rfl
@[simp] theorem setImp_crk (p : Nat) (v : ImpSt) : (s.setImp p v).crk = s.crk := rfl
@[simp] theorem setImp_cells (p : Nat) (v : ImpSt) : (s.setImp p v).cells = s.cells := rfl
@[simp] theorem setImp_arms (p : Nat) (v : ImpSt) : (s.setImp p v).arms = s.arms := rfl
@[simp] theorem setImp_dcal (p : Nat) (v : ImpSt) : (s.setImp p v).dcal = s.dcal := rfl
@[simp] theorem setImp_hrn (p : Nat) (v : ImpSt) : (s.setImp p v).hrn = s.hrn := rfl
@[simp] theorem setImp_hooks (p : Nat) (v : ImpSt) : (s.setImp p v).hooks = s.hooks := rfl
@[simp] theorem setImp_convs (p : Nat) (v : ImpSt) : (s.setImp p v).convs = s.convs := rfl
@[simp] theorem setImp_pairs (p : Nat) (v : ImpSt) : (s.setImp p v).pairs = s.pairs := rfl
@[simp] theorem setImp_lcw (p : Nat) (v : ImpSt) : (s.setImp p v).lcw = s.lcw := rfl
@[simp] theorem setImp_ffy (p : Nat) (v : ImpSt) : (s.setImp p v).ffy = s.ffy := rfl
@[simp] theorem setImp_cores (p : Nat) (v : ImpSt) : (s.setImp p v).cores = s.cores := rfl
@[simp] theorem setImp_tasks (p : Nat) (v : ImpSt) : (s.setImp p v).tasks = s.tasks := rfl
@[simp] theorem setImp_hive (p : Nat) (v : ImpSt) : (s.setImp p v).hive = s.hive := rfl
@[simp] theorem setImp_mth (p : Nat) (v : ImpSt) : (s.setImp p v).mth = s.mth := rfl
@[simp] theorem setImp_trm (p : Nat) (v : ImpSt) : (s.setImp p v).trm = s.trm := rfl
@[simp] theorem setImp_twn (p : Nat) (v : ImpSt) : (s.setImp p v).twn = s.twn := rfl
@[simp] theorem setImp_mts (p : Nat) (v : ImpSt) : (s.setImp p v).mts = s.mts := rfl
@[simp] theorem setImp_ccd (p : Nat) (v : ImpSt) : (s.setImp p v).ccd = s.ccd := rfl
@[simp] theorem setImp_mod (p : Nat) (v : ImpSt) : (s.setImp p v).mod = s.mod := rfl
@[simp] theorem setImp_hst (p : Nat) (v : ImpSt) : (s.setImp p v).hst = s.hst := rfl
@[simp] theorem setImp_eth (p : Nat) (v : ImpSt) : (s.setImp p v).eth = s.eth := rfl
@[simp] theorem setImp_pwm (p : Nat) (v : ImpSt) : (s.setImp p v).pwm = s.pwm := rfl
@[simp] theorem setImp_free (p : Nat) (v : ImpSt) : (s.setImp p v).free = s.free := rfl

/-! ### setCore -/

@[simp] theorem setCore_pending (n : Nat) (c : CoreSt) : (s.setCore n c).pending = s.pending := rfl
@[simp] theorem setCore_now (n : Nat) (c : CoreSt) : (s.setCore n c).now = s.now := rfl
@[simp] theorem setCore_regs (n : Nat) (c : CoreSt) : (s.setCore n c).regs = s.regs := rfl
@[simp] theorem setCore_eff (n : Nat) (c : CoreSt) : (s.setCore n c).eff = s.eff := rfl
@[simp] theorem setCore_hiLatch (n : Nat) (c : CoreSt) : (s.setCore n c).hiLatch = s.hiLatch := rfl
@[simp] theorem setCore_hiStage (n : Nat) (c : CoreSt) : (s.setCore n c).hiStage = s.hiStage := rfl
@[simp] theorem setCore_mem (n : Nat) (c : CoreSt) : (s.setCore n c).mem = s.mem := rfl
@[simp] theorem setCore_flash (n : Nat) (c : CoreSt) : (s.setCore n c).flash = s.flash := rfl
@[simp] theorem setCore_ecc (n : Nat) (c : CoreSt) : (s.setCore n c).ecc = s.ecc := rfl
@[simp] theorem setCore_crk (n : Nat) (c : CoreSt) : (s.setCore n c).crk = s.crk := rfl
@[simp] theorem setCore_cells (n : Nat) (c : CoreSt) : (s.setCore n c).cells = s.cells := rfl
@[simp] theorem setCore_arms (n : Nat) (c : CoreSt) : (s.setCore n c).arms = s.arms := rfl
@[simp] theorem setCore_dcal (n : Nat) (c : CoreSt) : (s.setCore n c).dcal = s.dcal := rfl
@[simp] theorem setCore_hrn (n : Nat) (c : CoreSt) : (s.setCore n c).hrn = s.hrn := rfl
@[simp] theorem setCore_hooks (n : Nat) (c : CoreSt) : (s.setCore n c).hooks = s.hooks := rfl
@[simp] theorem setCore_convs (n : Nat) (c : CoreSt) : (s.setCore n c).convs = s.convs := rfl
@[simp] theorem setCore_pairs (n : Nat) (c : CoreSt) : (s.setCore n c).pairs = s.pairs := rfl
@[simp] theorem setCore_lcw (n : Nat) (c : CoreSt) : (s.setCore n c).lcw = s.lcw := rfl
@[simp] theorem setCore_dfy (n : Nat) (c : CoreSt) : (s.setCore n c).dfy = s.dfy := rfl
@[simp] theorem setCore_ffy (n : Nat) (c : CoreSt) : (s.setCore n c).ffy = s.ffy := rfl
@[simp] theorem setCore_tasks (n : Nat) (c : CoreSt) : (s.setCore n c).tasks = s.tasks := rfl
@[simp] theorem setCore_hive (n : Nat) (c : CoreSt) : (s.setCore n c).hive = s.hive := rfl
@[simp] theorem setCore_mth (n : Nat) (c : CoreSt) : (s.setCore n c).mth = s.mth := rfl
@[simp] theorem setCore_trm (n : Nat) (c : CoreSt) : (s.setCore n c).trm = s.trm := rfl
@[simp] theorem setCore_twn (n : Nat) (c : CoreSt) : (s.setCore n c).twn = s.twn := rfl
@[simp] theorem setCore_mts (n : Nat) (c : CoreSt) : (s.setCore n c).mts = s.mts := rfl
@[simp] theorem setCore_ccd (n : Nat) (c : CoreSt) : (s.setCore n c).ccd = s.ccd := rfl
@[simp] theorem setCore_mod (n : Nat) (c : CoreSt) : (s.setCore n c).mod = s.mod := rfl
@[simp] theorem setCore_hst (n : Nat) (c : CoreSt) : (s.setCore n c).hst = s.hst := rfl
@[simp] theorem setCore_eth (n : Nat) (c : CoreSt) : (s.setCore n c).eth = s.eth := rfl
@[simp] theorem setCore_pwm (n : Nat) (c : CoreSt) : (s.setCore n c).pwm = s.pwm := rfl
@[simp] theorem setCore_free (n : Nat) (c : CoreSt) : (s.setCore n c).free = s.free := rfl

/-! ### ipend -/

@[simp] theorem ipend_pending (n b : Nat) : (s.ipend n b).pending = s.pending := rfl
@[simp] theorem ipend_now (n b : Nat) : (s.ipend n b).now = s.now := rfl
@[simp] theorem ipend_regs (n b : Nat) : (s.ipend n b).regs = s.regs := rfl
@[simp] theorem ipend_eff (n b : Nat) : (s.ipend n b).eff = s.eff := rfl
@[simp] theorem ipend_hiLatch (n b : Nat) : (s.ipend n b).hiLatch = s.hiLatch := rfl
@[simp] theorem ipend_hiStage (n b : Nat) : (s.ipend n b).hiStage = s.hiStage := rfl
@[simp] theorem ipend_mem (n b : Nat) : (s.ipend n b).mem = s.mem := rfl
@[simp] theorem ipend_flash (n b : Nat) : (s.ipend n b).flash = s.flash := rfl
@[simp] theorem ipend_ecc (n b : Nat) : (s.ipend n b).ecc = s.ecc := rfl
@[simp] theorem ipend_crk (n b : Nat) : (s.ipend n b).crk = s.crk := rfl
@[simp] theorem ipend_cells (n b : Nat) : (s.ipend n b).cells = s.cells := rfl
@[simp] theorem ipend_arms (n b : Nat) : (s.ipend n b).arms = s.arms := rfl
@[simp] theorem ipend_dcal (n b : Nat) : (s.ipend n b).dcal = s.dcal := rfl
@[simp] theorem ipend_hrn (n b : Nat) : (s.ipend n b).hrn = s.hrn := rfl
@[simp] theorem ipend_hooks (n b : Nat) : (s.ipend n b).hooks = s.hooks := rfl
@[simp] theorem ipend_convs (n b : Nat) : (s.ipend n b).convs = s.convs := rfl
@[simp] theorem ipend_pairs (n b : Nat) : (s.ipend n b).pairs = s.pairs := rfl
@[simp] theorem ipend_lcw (n b : Nat) : (s.ipend n b).lcw = s.lcw := rfl
@[simp] theorem ipend_dfy (n b : Nat) : (s.ipend n b).dfy = s.dfy := rfl
@[simp] theorem ipend_ffy (n b : Nat) : (s.ipend n b).ffy = s.ffy := rfl
@[simp] theorem ipend_tasks (n b : Nat) : (s.ipend n b).tasks = s.tasks := rfl
@[simp] theorem ipend_hive (n b : Nat) : (s.ipend n b).hive = s.hive := rfl
@[simp] theorem ipend_mth (n b : Nat) : (s.ipend n b).mth = s.mth := rfl
@[simp] theorem ipend_trm (n b : Nat) : (s.ipend n b).trm = s.trm := rfl
@[simp] theorem ipend_twn (n b : Nat) : (s.ipend n b).twn = s.twn := rfl
@[simp] theorem ipend_mts (n b : Nat) : (s.ipend n b).mts = s.mts := rfl
@[simp] theorem ipend_ccd (n b : Nat) : (s.ipend n b).ccd = s.ccd := rfl
@[simp] theorem ipend_mod (n b : Nat) : (s.ipend n b).mod = s.mod := rfl
@[simp] theorem ipend_hst (n b : Nat) : (s.ipend n b).hst = s.hst := rfl
@[simp] theorem ipend_eth (n b : Nat) : (s.ipend n b).eth = s.eth := rfl
@[simp] theorem ipend_pwm (n b : Nat) : (s.ipend n b).pwm = s.pwm := rfl
@[simp] theorem ipend_free (n b : Nat) : (s.ipend n b).free = s.free := rfl

/-! ### setTask -/

@[simp] theorem setTask_pending (t : Nat) (v : TaskSt) : (s.setTask t v).pending = s.pending := rfl
@[simp] theorem setTask_now (t : Nat) (v : TaskSt) : (s.setTask t v).now = s.now := rfl
@[simp] theorem setTask_regs (t : Nat) (v : TaskSt) : (s.setTask t v).regs = s.regs := rfl
@[simp] theorem setTask_eff (t : Nat) (v : TaskSt) : (s.setTask t v).eff = s.eff := rfl
@[simp] theorem setTask_hiLatch (t : Nat) (v : TaskSt) : (s.setTask t v).hiLatch = s.hiLatch := rfl
@[simp] theorem setTask_hiStage (t : Nat) (v : TaskSt) : (s.setTask t v).hiStage = s.hiStage := rfl
@[simp] theorem setTask_mem (t : Nat) (v : TaskSt) : (s.setTask t v).mem = s.mem := rfl
@[simp] theorem setTask_flash (t : Nat) (v : TaskSt) : (s.setTask t v).flash = s.flash := rfl
@[simp] theorem setTask_ecc (t : Nat) (v : TaskSt) : (s.setTask t v).ecc = s.ecc := rfl
@[simp] theorem setTask_crk (t : Nat) (v : TaskSt) : (s.setTask t v).crk = s.crk := rfl
@[simp] theorem setTask_cells (t : Nat) (v : TaskSt) : (s.setTask t v).cells = s.cells := rfl
@[simp] theorem setTask_arms (t : Nat) (v : TaskSt) : (s.setTask t v).arms = s.arms := rfl
@[simp] theorem setTask_dcal (t : Nat) (v : TaskSt) : (s.setTask t v).dcal = s.dcal := rfl
@[simp] theorem setTask_hrn (t : Nat) (v : TaskSt) : (s.setTask t v).hrn = s.hrn := rfl
@[simp] theorem setTask_hooks (t : Nat) (v : TaskSt) : (s.setTask t v).hooks = s.hooks := rfl
@[simp] theorem setTask_convs (t : Nat) (v : TaskSt) : (s.setTask t v).convs = s.convs := rfl
@[simp] theorem setTask_pairs (t : Nat) (v : TaskSt) : (s.setTask t v).pairs = s.pairs := rfl
@[simp] theorem setTask_lcw (t : Nat) (v : TaskSt) : (s.setTask t v).lcw = s.lcw := rfl
@[simp] theorem setTask_dfy (t : Nat) (v : TaskSt) : (s.setTask t v).dfy = s.dfy := rfl
@[simp] theorem setTask_ffy (t : Nat) (v : TaskSt) : (s.setTask t v).ffy = s.ffy := rfl
@[simp] theorem setTask_cores (t : Nat) (v : TaskSt) : (s.setTask t v).cores = s.cores := rfl
@[simp] theorem setTask_hive (t : Nat) (v : TaskSt) : (s.setTask t v).hive = s.hive := rfl
@[simp] theorem setTask_mth (t : Nat) (v : TaskSt) : (s.setTask t v).mth = s.mth := rfl
@[simp] theorem setTask_trm (t : Nat) (v : TaskSt) : (s.setTask t v).trm = s.trm := rfl
@[simp] theorem setTask_twn (t : Nat) (v : TaskSt) : (s.setTask t v).twn = s.twn := rfl
@[simp] theorem setTask_mts (t : Nat) (v : TaskSt) : (s.setTask t v).mts = s.mts := rfl
@[simp] theorem setTask_ccd (t : Nat) (v : TaskSt) : (s.setTask t v).ccd = s.ccd := rfl
@[simp] theorem setTask_mod (t : Nat) (v : TaskSt) : (s.setTask t v).mod = s.mod := rfl
@[simp] theorem setTask_hst (t : Nat) (v : TaskSt) : (s.setTask t v).hst = s.hst := rfl
@[simp] theorem setTask_eth (t : Nat) (v : TaskSt) : (s.setTask t v).eth = s.eth := rfl
@[simp] theorem setTask_pwm (t : Nat) (v : TaskSt) : (s.setTask t v).pwm = s.pwm := rfl
@[simp] theorem setTask_free (t : Nat) (v : TaskSt) : (s.setTask t v).free = s.free := rfl

/-! ### setHtask -/

@[simp] theorem setHtask_pending (t : Nat) (v : HTask) : (s.setHtask t v).pending = s.pending := rfl
@[simp] theorem setHtask_now (t : Nat) (v : HTask) : (s.setHtask t v).now = s.now := rfl
@[simp] theorem setHtask_regs (t : Nat) (v : HTask) : (s.setHtask t v).regs = s.regs := rfl
@[simp] theorem setHtask_eff (t : Nat) (v : HTask) : (s.setHtask t v).eff = s.eff := rfl
@[simp] theorem setHtask_hiLatch (t : Nat) (v : HTask) : (s.setHtask t v).hiLatch = s.hiLatch := rfl
@[simp] theorem setHtask_hiStage (t : Nat) (v : HTask) : (s.setHtask t v).hiStage = s.hiStage := rfl
@[simp] theorem setHtask_mem (t : Nat) (v : HTask) : (s.setHtask t v).mem = s.mem := rfl
@[simp] theorem setHtask_flash (t : Nat) (v : HTask) : (s.setHtask t v).flash = s.flash := rfl
@[simp] theorem setHtask_ecc (t : Nat) (v : HTask) : (s.setHtask t v).ecc = s.ecc := rfl
@[simp] theorem setHtask_crk (t : Nat) (v : HTask) : (s.setHtask t v).crk = s.crk := rfl
@[simp] theorem setHtask_cells (t : Nat) (v : HTask) : (s.setHtask t v).cells = s.cells := rfl
@[simp] theorem setHtask_arms (t : Nat) (v : HTask) : (s.setHtask t v).arms = s.arms := rfl
@[simp] theorem setHtask_dcal (t : Nat) (v : HTask) : (s.setHtask t v).dcal = s.dcal := rfl
@[simp] theorem setHtask_hrn (t : Nat) (v : HTask) : (s.setHtask t v).hrn = s.hrn := rfl
@[simp] theorem setHtask_hooks (t : Nat) (v : HTask) : (s.setHtask t v).hooks = s.hooks := rfl
@[simp] theorem setHtask_convs (t : Nat) (v : HTask) : (s.setHtask t v).convs = s.convs := rfl
@[simp] theorem setHtask_pairs (t : Nat) (v : HTask) : (s.setHtask t v).pairs = s.pairs := rfl
@[simp] theorem setHtask_lcw (t : Nat) (v : HTask) : (s.setHtask t v).lcw = s.lcw := rfl
@[simp] theorem setHtask_dfy (t : Nat) (v : HTask) : (s.setHtask t v).dfy = s.dfy := rfl
@[simp] theorem setHtask_ffy (t : Nat) (v : HTask) : (s.setHtask t v).ffy = s.ffy := rfl
@[simp] theorem setHtask_cores (t : Nat) (v : HTask) : (s.setHtask t v).cores = s.cores := rfl
@[simp] theorem setHtask_tasks (t : Nat) (v : HTask) : (s.setHtask t v).tasks = s.tasks := rfl
@[simp] theorem setHtask_mth (t : Nat) (v : HTask) : (s.setHtask t v).mth = s.mth := rfl
@[simp] theorem setHtask_trm (t : Nat) (v : HTask) : (s.setHtask t v).trm = s.trm := rfl
@[simp] theorem setHtask_twn (t : Nat) (v : HTask) : (s.setHtask t v).twn = s.twn := rfl
@[simp] theorem setHtask_mts (t : Nat) (v : HTask) : (s.setHtask t v).mts = s.mts := rfl
@[simp] theorem setHtask_ccd (t : Nat) (v : HTask) : (s.setHtask t v).ccd = s.ccd := rfl
@[simp] theorem setHtask_mod (t : Nat) (v : HTask) : (s.setHtask t v).mod = s.mod := rfl
@[simp] theorem setHtask_hst (t : Nat) (v : HTask) : (s.setHtask t v).hst = s.hst := rfl
@[simp] theorem setHtask_eth (t : Nat) (v : HTask) : (s.setHtask t v).eth = s.eth := rfl
@[simp] theorem setHtask_pwm (t : Nat) (v : HTask) : (s.setHtask t v).pwm = s.pwm := rfl
@[simp] theorem setHtask_free (t : Nat) (v : HTask) : (s.setHtask t v).free = s.free := rfl

/-! ### setHcore -/

@[simp] theorem setHcore_pending (n : Nat) (v : HCore) : (s.setHcore n v).pending = s.pending := rfl
@[simp] theorem setHcore_now (n : Nat) (v : HCore) : (s.setHcore n v).now = s.now := rfl
@[simp] theorem setHcore_regs (n : Nat) (v : HCore) : (s.setHcore n v).regs = s.regs := rfl
@[simp] theorem setHcore_eff (n : Nat) (v : HCore) : (s.setHcore n v).eff = s.eff := rfl
@[simp] theorem setHcore_hiLatch (n : Nat) (v : HCore) : (s.setHcore n v).hiLatch = s.hiLatch := rfl
@[simp] theorem setHcore_hiStage (n : Nat) (v : HCore) : (s.setHcore n v).hiStage = s.hiStage := rfl
@[simp] theorem setHcore_mem (n : Nat) (v : HCore) : (s.setHcore n v).mem = s.mem := rfl
@[simp] theorem setHcore_flash (n : Nat) (v : HCore) : (s.setHcore n v).flash = s.flash := rfl
@[simp] theorem setHcore_ecc (n : Nat) (v : HCore) : (s.setHcore n v).ecc = s.ecc := rfl
@[simp] theorem setHcore_crk (n : Nat) (v : HCore) : (s.setHcore n v).crk = s.crk := rfl
@[simp] theorem setHcore_cells (n : Nat) (v : HCore) : (s.setHcore n v).cells = s.cells := rfl
@[simp] theorem setHcore_arms (n : Nat) (v : HCore) : (s.setHcore n v).arms = s.arms := rfl
@[simp] theorem setHcore_dcal (n : Nat) (v : HCore) : (s.setHcore n v).dcal = s.dcal := rfl
@[simp] theorem setHcore_hrn (n : Nat) (v : HCore) : (s.setHcore n v).hrn = s.hrn := rfl
@[simp] theorem setHcore_hooks (n : Nat) (v : HCore) : (s.setHcore n v).hooks = s.hooks := rfl
@[simp] theorem setHcore_convs (n : Nat) (v : HCore) : (s.setHcore n v).convs = s.convs := rfl
@[simp] theorem setHcore_pairs (n : Nat) (v : HCore) : (s.setHcore n v).pairs = s.pairs := rfl
@[simp] theorem setHcore_lcw (n : Nat) (v : HCore) : (s.setHcore n v).lcw = s.lcw := rfl
@[simp] theorem setHcore_dfy (n : Nat) (v : HCore) : (s.setHcore n v).dfy = s.dfy := rfl
@[simp] theorem setHcore_ffy (n : Nat) (v : HCore) : (s.setHcore n v).ffy = s.ffy := rfl
@[simp] theorem setHcore_cores (n : Nat) (v : HCore) : (s.setHcore n v).cores = s.cores := rfl
@[simp] theorem setHcore_tasks (n : Nat) (v : HCore) : (s.setHcore n v).tasks = s.tasks := rfl
@[simp] theorem setHcore_mth (n : Nat) (v : HCore) : (s.setHcore n v).mth = s.mth := rfl
@[simp] theorem setHcore_trm (n : Nat) (v : HCore) : (s.setHcore n v).trm = s.trm := rfl
@[simp] theorem setHcore_twn (n : Nat) (v : HCore) : (s.setHcore n v).twn = s.twn := rfl
@[simp] theorem setHcore_mts (n : Nat) (v : HCore) : (s.setHcore n v).mts = s.mts := rfl
@[simp] theorem setHcore_ccd (n : Nat) (v : HCore) : (s.setHcore n v).ccd = s.ccd := rfl
@[simp] theorem setHcore_mod (n : Nat) (v : HCore) : (s.setHcore n v).mod = s.mod := rfl
@[simp] theorem setHcore_hst (n : Nat) (v : HCore) : (s.setHcore n v).hst = s.hst := rfl
@[simp] theorem setHcore_eth (n : Nat) (v : HCore) : (s.setHcore n v).eth = s.eth := rfl
@[simp] theorem setHcore_pwm (n : Nat) (v : HCore) : (s.setHcore n v).pwm = s.pwm := rfl
@[simp] theorem setHcore_free (n : Nat) (v : HCore) : (s.setHcore n v).free = s.free := rfl

/-! ### setFunc -/

@[simp] theorem setFunc_pending (f : Nat) (v : FuncSt) : (s.setFunc f v).pending = s.pending := rfl
@[simp] theorem setFunc_now (f : Nat) (v : FuncSt) : (s.setFunc f v).now = s.now := rfl
@[simp] theorem setFunc_regs (f : Nat) (v : FuncSt) : (s.setFunc f v).regs = s.regs := rfl
@[simp] theorem setFunc_eff (f : Nat) (v : FuncSt) : (s.setFunc f v).eff = s.eff := rfl
@[simp] theorem setFunc_hiLatch (f : Nat) (v : FuncSt) : (s.setFunc f v).hiLatch = s.hiLatch := rfl
@[simp] theorem setFunc_hiStage (f : Nat) (v : FuncSt) : (s.setFunc f v).hiStage = s.hiStage := rfl
@[simp] theorem setFunc_mem (f : Nat) (v : FuncSt) : (s.setFunc f v).mem = s.mem := rfl
@[simp] theorem setFunc_flash (f : Nat) (v : FuncSt) : (s.setFunc f v).flash = s.flash := rfl
@[simp] theorem setFunc_ecc (f : Nat) (v : FuncSt) : (s.setFunc f v).ecc = s.ecc := rfl
@[simp] theorem setFunc_crk (f : Nat) (v : FuncSt) : (s.setFunc f v).crk = s.crk := rfl
@[simp] theorem setFunc_cells (f : Nat) (v : FuncSt) : (s.setFunc f v).cells = s.cells := rfl
@[simp] theorem setFunc_arms (f : Nat) (v : FuncSt) : (s.setFunc f v).arms = s.arms := rfl
@[simp] theorem setFunc_dcal (f : Nat) (v : FuncSt) : (s.setFunc f v).dcal = s.dcal := rfl
@[simp] theorem setFunc_hrn (f : Nat) (v : FuncSt) : (s.setFunc f v).hrn = s.hrn := rfl
@[simp] theorem setFunc_hooks (f : Nat) (v : FuncSt) : (s.setFunc f v).hooks = s.hooks := rfl
@[simp] theorem setFunc_convs (f : Nat) (v : FuncSt) : (s.setFunc f v).convs = s.convs := rfl
@[simp] theorem setFunc_pairs (f : Nat) (v : FuncSt) : (s.setFunc f v).pairs = s.pairs := rfl
@[simp] theorem setFunc_lcw (f : Nat) (v : FuncSt) : (s.setFunc f v).lcw = s.lcw := rfl
@[simp] theorem setFunc_dfy (f : Nat) (v : FuncSt) : (s.setFunc f v).dfy = s.dfy := rfl
@[simp] theorem setFunc_ffy (f : Nat) (v : FuncSt) : (s.setFunc f v).ffy = s.ffy := rfl
@[simp] theorem setFunc_cores (f : Nat) (v : FuncSt) : (s.setFunc f v).cores = s.cores := rfl
@[simp] theorem setFunc_tasks (f : Nat) (v : FuncSt) : (s.setFunc f v).tasks = s.tasks := rfl
@[simp] theorem setFunc_hive (f : Nat) (v : FuncSt) : (s.setFunc f v).hive = s.hive := rfl
@[simp] theorem setFunc_mth (f : Nat) (v : FuncSt) : (s.setFunc f v).mth = s.mth := rfl
@[simp] theorem setFunc_trm (f : Nat) (v : FuncSt) : (s.setFunc f v).trm = s.trm := rfl
@[simp] theorem setFunc_twn (f : Nat) (v : FuncSt) : (s.setFunc f v).twn = s.twn := rfl
@[simp] theorem setFunc_ccd (f : Nat) (v : FuncSt) : (s.setFunc f v).ccd = s.ccd := rfl
@[simp] theorem setFunc_mod (f : Nat) (v : FuncSt) : (s.setFunc f v).mod = s.mod := rfl
@[simp] theorem setFunc_hst (f : Nat) (v : FuncSt) : (s.setFunc f v).hst = s.hst := rfl
@[simp] theorem setFunc_eth (f : Nat) (v : FuncSt) : (s.setFunc f v).eth = s.eth := rfl
@[simp] theorem setFunc_pwm (f : Nat) (v : FuncSt) : (s.setFunc f v).pwm = s.pwm := rfl
@[simp] theorem setFunc_free (f : Nat) (v : FuncSt) : (s.setFunc f v).free = s.free := rfl

/-! ### setDma -/

@[simp] theorem setDma_pending (c : Nat) (v : DmaSt) : (s.setDma c v).pending = s.pending := rfl
@[simp] theorem setDma_now (c : Nat) (v : DmaSt) : (s.setDma c v).now = s.now := rfl
@[simp] theorem setDma_regs (c : Nat) (v : DmaSt) : (s.setDma c v).regs = s.regs := rfl
@[simp] theorem setDma_eff (c : Nat) (v : DmaSt) : (s.setDma c v).eff = s.eff := rfl
@[simp] theorem setDma_hiLatch (c : Nat) (v : DmaSt) : (s.setDma c v).hiLatch = s.hiLatch := rfl
@[simp] theorem setDma_hiStage (c : Nat) (v : DmaSt) : (s.setDma c v).hiStage = s.hiStage := rfl
@[simp] theorem setDma_mem (c : Nat) (v : DmaSt) : (s.setDma c v).mem = s.mem := rfl
@[simp] theorem setDma_flash (c : Nat) (v : DmaSt) : (s.setDma c v).flash = s.flash := rfl
@[simp] theorem setDma_ecc (c : Nat) (v : DmaSt) : (s.setDma c v).ecc = s.ecc := rfl
@[simp] theorem setDma_crk (c : Nat) (v : DmaSt) : (s.setDma c v).crk = s.crk := rfl
@[simp] theorem setDma_cells (c : Nat) (v : DmaSt) : (s.setDma c v).cells = s.cells := rfl
@[simp] theorem setDma_arms (c : Nat) (v : DmaSt) : (s.setDma c v).arms = s.arms := rfl
@[simp] theorem setDma_dcal (c : Nat) (v : DmaSt) : (s.setDma c v).dcal = s.dcal := rfl
@[simp] theorem setDma_hrn (c : Nat) (v : DmaSt) : (s.setDma c v).hrn = s.hrn := rfl
@[simp] theorem setDma_hooks (c : Nat) (v : DmaSt) : (s.setDma c v).hooks = s.hooks := rfl
@[simp] theorem setDma_convs (c : Nat) (v : DmaSt) : (s.setDma c v).convs = s.convs := rfl
@[simp] theorem setDma_pairs (c : Nat) (v : DmaSt) : (s.setDma c v).pairs = s.pairs := rfl
@[simp] theorem setDma_lcw (c : Nat) (v : DmaSt) : (s.setDma c v).lcw = s.lcw := rfl
@[simp] theorem setDma_dfy (c : Nat) (v : DmaSt) : (s.setDma c v).dfy = s.dfy := rfl
@[simp] theorem setDma_ffy (c : Nat) (v : DmaSt) : (s.setDma c v).ffy = s.ffy := rfl
@[simp] theorem setDma_cores (c : Nat) (v : DmaSt) : (s.setDma c v).cores = s.cores := rfl
@[simp] theorem setDma_tasks (c : Nat) (v : DmaSt) : (s.setDma c v).tasks = s.tasks := rfl
@[simp] theorem setDma_hive (c : Nat) (v : DmaSt) : (s.setDma c v).hive = s.hive := rfl
@[simp] theorem setDma_mth (c : Nat) (v : DmaSt) : (s.setDma c v).mth = s.mth := rfl
@[simp] theorem setDma_trm (c : Nat) (v : DmaSt) : (s.setDma c v).trm = s.trm := rfl
@[simp] theorem setDma_twn (c : Nat) (v : DmaSt) : (s.setDma c v).twn = s.twn := rfl
@[simp] theorem setDma_mts (c : Nat) (v : DmaSt) : (s.setDma c v).mts = s.mts := rfl
@[simp] theorem setDma_ccd (c : Nat) (v : DmaSt) : (s.setDma c v).ccd = s.ccd := rfl
@[simp] theorem setDma_mod (c : Nat) (v : DmaSt) : (s.setDma c v).mod = s.mod := rfl
@[simp] theorem setDma_eth (c : Nat) (v : DmaSt) : (s.setDma c v).eth = s.eth := rfl
@[simp] theorem setDma_pwm (c : Nat) (v : DmaSt) : (s.setDma c v).pwm = s.pwm := rfl
@[simp] theorem setDma_free (c : Nat) (v : DmaSt) : (s.setDma c v).free = s.free := rfl

/-! ### setEthp -/

@[simp] theorem setEthp_pending (p : Nat) (v : EthSt) : (s.setEthp p v).pending = s.pending := rfl
@[simp] theorem setEthp_now (p : Nat) (v : EthSt) : (s.setEthp p v).now = s.now := rfl
@[simp] theorem setEthp_regs (p : Nat) (v : EthSt) : (s.setEthp p v).regs = s.regs := rfl
@[simp] theorem setEthp_eff (p : Nat) (v : EthSt) : (s.setEthp p v).eff = s.eff := rfl
@[simp] theorem setEthp_hiLatch (p : Nat) (v : EthSt) : (s.setEthp p v).hiLatch = s.hiLatch := rfl
@[simp] theorem setEthp_hiStage (p : Nat) (v : EthSt) : (s.setEthp p v).hiStage = s.hiStage := rfl
@[simp] theorem setEthp_mem (p : Nat) (v : EthSt) : (s.setEthp p v).mem = s.mem := rfl
@[simp] theorem setEthp_flash (p : Nat) (v : EthSt) : (s.setEthp p v).flash = s.flash := rfl
@[simp] theorem setEthp_ecc (p : Nat) (v : EthSt) : (s.setEthp p v).ecc = s.ecc := rfl
@[simp] theorem setEthp_crk (p : Nat) (v : EthSt) : (s.setEthp p v).crk = s.crk := rfl
@[simp] theorem setEthp_cells (p : Nat) (v : EthSt) : (s.setEthp p v).cells = s.cells := rfl
@[simp] theorem setEthp_arms (p : Nat) (v : EthSt) : (s.setEthp p v).arms = s.arms := rfl
@[simp] theorem setEthp_dcal (p : Nat) (v : EthSt) : (s.setEthp p v).dcal = s.dcal := rfl
@[simp] theorem setEthp_hrn (p : Nat) (v : EthSt) : (s.setEthp p v).hrn = s.hrn := rfl
@[simp] theorem setEthp_hooks (p : Nat) (v : EthSt) : (s.setEthp p v).hooks = s.hooks := rfl
@[simp] theorem setEthp_convs (p : Nat) (v : EthSt) : (s.setEthp p v).convs = s.convs := rfl
@[simp] theorem setEthp_pairs (p : Nat) (v : EthSt) : (s.setEthp p v).pairs = s.pairs := rfl
@[simp] theorem setEthp_lcw (p : Nat) (v : EthSt) : (s.setEthp p v).lcw = s.lcw := rfl
@[simp] theorem setEthp_dfy (p : Nat) (v : EthSt) : (s.setEthp p v).dfy = s.dfy := rfl
@[simp] theorem setEthp_ffy (p : Nat) (v : EthSt) : (s.setEthp p v).ffy = s.ffy := rfl
@[simp] theorem setEthp_cores (p : Nat) (v : EthSt) : (s.setEthp p v).cores = s.cores := rfl
@[simp] theorem setEthp_tasks (p : Nat) (v : EthSt) : (s.setEthp p v).tasks = s.tasks := rfl
@[simp] theorem setEthp_hive (p : Nat) (v : EthSt) : (s.setEthp p v).hive = s.hive := rfl
@[simp] theorem setEthp_mth (p : Nat) (v : EthSt) : (s.setEthp p v).mth = s.mth := rfl
@[simp] theorem setEthp_trm (p : Nat) (v : EthSt) : (s.setEthp p v).trm = s.trm := rfl
@[simp] theorem setEthp_twn (p : Nat) (v : EthSt) : (s.setEthp p v).twn = s.twn := rfl
@[simp] theorem setEthp_mts (p : Nat) (v : EthSt) : (s.setEthp p v).mts = s.mts := rfl
@[simp] theorem setEthp_ccd (p : Nat) (v : EthSt) : (s.setEthp p v).ccd = s.ccd := rfl
@[simp] theorem setEthp_mod (p : Nat) (v : EthSt) : (s.setEthp p v).mod = s.mod := rfl
@[simp] theorem setEthp_hst (p : Nat) (v : EthSt) : (s.setEthp p v).hst = s.hst := rfl
@[simp] theorem setEthp_pwm (p : Nat) (v : EthSt) : (s.setEthp p v).pwm = s.pwm := rfl
@[simp] theorem setEthp_free (p : Nat) (v : EthSt) : (s.setEthp p v).free = s.free := rfl

/-! ### setPwmCh -/

@[simp] theorem setPwmCh_pending (n : Nat) (v : PwmSt) : (s.setPwmCh n v).pending = s.pending := rfl
@[simp] theorem setPwmCh_now (n : Nat) (v : PwmSt) : (s.setPwmCh n v).now = s.now := rfl
@[simp] theorem setPwmCh_regs (n : Nat) (v : PwmSt) : (s.setPwmCh n v).regs = s.regs := rfl
@[simp] theorem setPwmCh_eff (n : Nat) (v : PwmSt) : (s.setPwmCh n v).eff = s.eff := rfl
@[simp] theorem setPwmCh_hiLatch (n : Nat) (v : PwmSt) : (s.setPwmCh n v).hiLatch = s.hiLatch := rfl
@[simp] theorem setPwmCh_hiStage (n : Nat) (v : PwmSt) : (s.setPwmCh n v).hiStage = s.hiStage := rfl
@[simp] theorem setPwmCh_mem (n : Nat) (v : PwmSt) : (s.setPwmCh n v).mem = s.mem := rfl
@[simp] theorem setPwmCh_flash (n : Nat) (v : PwmSt) : (s.setPwmCh n v).flash = s.flash := rfl
@[simp] theorem setPwmCh_ecc (n : Nat) (v : PwmSt) : (s.setPwmCh n v).ecc = s.ecc := rfl
@[simp] theorem setPwmCh_crk (n : Nat) (v : PwmSt) : (s.setPwmCh n v).crk = s.crk := rfl
@[simp] theorem setPwmCh_cells (n : Nat) (v : PwmSt) : (s.setPwmCh n v).cells = s.cells := rfl
@[simp] theorem setPwmCh_arms (n : Nat) (v : PwmSt) : (s.setPwmCh n v).arms = s.arms := rfl
@[simp] theorem setPwmCh_dcal (n : Nat) (v : PwmSt) : (s.setPwmCh n v).dcal = s.dcal := rfl
@[simp] theorem setPwmCh_hrn (n : Nat) (v : PwmSt) : (s.setPwmCh n v).hrn = s.hrn := rfl
@[simp] theorem setPwmCh_hooks (n : Nat) (v : PwmSt) : (s.setPwmCh n v).hooks = s.hooks := rfl
@[simp] theorem setPwmCh_convs (n : Nat) (v : PwmSt) : (s.setPwmCh n v).convs = s.convs := rfl
@[simp] theorem setPwmCh_pairs (n : Nat) (v : PwmSt) : (s.setPwmCh n v).pairs = s.pairs := rfl
@[simp] theorem setPwmCh_lcw (n : Nat) (v : PwmSt) : (s.setPwmCh n v).lcw = s.lcw := rfl
@[simp] theorem setPwmCh_dfy (n : Nat) (v : PwmSt) : (s.setPwmCh n v).dfy = s.dfy := rfl
@[simp] theorem setPwmCh_ffy (n : Nat) (v : PwmSt) : (s.setPwmCh n v).ffy = s.ffy := rfl
@[simp] theorem setPwmCh_cores (n : Nat) (v : PwmSt) : (s.setPwmCh n v).cores = s.cores := rfl
@[simp] theorem setPwmCh_tasks (n : Nat) (v : PwmSt) : (s.setPwmCh n v).tasks = s.tasks := rfl
@[simp] theorem setPwmCh_hive (n : Nat) (v : PwmSt) : (s.setPwmCh n v).hive = s.hive := rfl
@[simp] theorem setPwmCh_mth (n : Nat) (v : PwmSt) : (s.setPwmCh n v).mth = s.mth := rfl
@[simp] theorem setPwmCh_trm (n : Nat) (v : PwmSt) : (s.setPwmCh n v).trm = s.trm := rfl
@[simp] theorem setPwmCh_twn (n : Nat) (v : PwmSt) : (s.setPwmCh n v).twn = s.twn := rfl
@[simp] theorem setPwmCh_mts (n : Nat) (v : PwmSt) : (s.setPwmCh n v).mts = s.mts := rfl
@[simp] theorem setPwmCh_ccd (n : Nat) (v : PwmSt) : (s.setPwmCh n v).ccd = s.ccd := rfl
@[simp] theorem setPwmCh_mod (n : Nat) (v : PwmSt) : (s.setPwmCh n v).mod = s.mod := rfl
@[simp] theorem setPwmCh_hst (n : Nat) (v : PwmSt) : (s.setPwmCh n v).hst = s.hst := rfl
@[simp] theorem setPwmCh_eth (n : Nat) (v : PwmSt) : (s.setPwmCh n v).eth = s.eth := rfl
@[simp] theorem setPwmCh_free (n : Nat) (v : PwmSt) : (s.setPwmCh n v).free = s.free := rfl

/-! ### setCal -/

@[simp] theorem setCal_pending (i : Nat) (v : CalSt) : (s.setCal i v).pending = s.pending := rfl
@[simp] theorem setCal_now (i : Nat) (v : CalSt) : (s.setCal i v).now = s.now := rfl
@[simp] theorem setCal_regs (i : Nat) (v : CalSt) : (s.setCal i v).regs = s.regs := rfl
@[simp] theorem setCal_eff (i : Nat) (v : CalSt) : (s.setCal i v).eff = s.eff := rfl
@[simp] theorem setCal_hiLatch (i : Nat) (v : CalSt) : (s.setCal i v).hiLatch = s.hiLatch := rfl
@[simp] theorem setCal_hiStage (i : Nat) (v : CalSt) : (s.setCal i v).hiStage = s.hiStage := rfl
@[simp] theorem setCal_mem (i : Nat) (v : CalSt) : (s.setCal i v).mem = s.mem := rfl
@[simp] theorem setCal_flash (i : Nat) (v : CalSt) : (s.setCal i v).flash = s.flash := rfl
@[simp] theorem setCal_ecc (i : Nat) (v : CalSt) : (s.setCal i v).ecc = s.ecc := rfl
@[simp] theorem setCal_crk (i : Nat) (v : CalSt) : (s.setCal i v).crk = s.crk := rfl
@[simp] theorem setCal_cells (i : Nat) (v : CalSt) : (s.setCal i v).cells = s.cells := rfl
@[simp] theorem setCal_arms (i : Nat) (v : CalSt) : (s.setCal i v).arms = s.arms := rfl
@[simp] theorem setCal_hrn (i : Nat) (v : CalSt) : (s.setCal i v).hrn = s.hrn := rfl
@[simp] theorem setCal_hooks (i : Nat) (v : CalSt) : (s.setCal i v).hooks = s.hooks := rfl
@[simp] theorem setCal_convs (i : Nat) (v : CalSt) : (s.setCal i v).convs = s.convs := rfl
@[simp] theorem setCal_pairs (i : Nat) (v : CalSt) : (s.setCal i v).pairs = s.pairs := rfl
@[simp] theorem setCal_lcw (i : Nat) (v : CalSt) : (s.setCal i v).lcw = s.lcw := rfl
@[simp] theorem setCal_dfy (i : Nat) (v : CalSt) : (s.setCal i v).dfy = s.dfy := rfl
@[simp] theorem setCal_ffy (i : Nat) (v : CalSt) : (s.setCal i v).ffy = s.ffy := rfl
@[simp] theorem setCal_cores (i : Nat) (v : CalSt) : (s.setCal i v).cores = s.cores := rfl
@[simp] theorem setCal_tasks (i : Nat) (v : CalSt) : (s.setCal i v).tasks = s.tasks := rfl
@[simp] theorem setCal_hive (i : Nat) (v : CalSt) : (s.setCal i v).hive = s.hive := rfl
@[simp] theorem setCal_mth (i : Nat) (v : CalSt) : (s.setCal i v).mth = s.mth := rfl
@[simp] theorem setCal_trm (i : Nat) (v : CalSt) : (s.setCal i v).trm = s.trm := rfl
@[simp] theorem setCal_twn (i : Nat) (v : CalSt) : (s.setCal i v).twn = s.twn := rfl
@[simp] theorem setCal_mts (i : Nat) (v : CalSt) : (s.setCal i v).mts = s.mts := rfl
@[simp] theorem setCal_ccd (i : Nat) (v : CalSt) : (s.setCal i v).ccd = s.ccd := rfl
@[simp] theorem setCal_mod (i : Nat) (v : CalSt) : (s.setCal i v).mod = s.mod := rfl
@[simp] theorem setCal_hst (i : Nat) (v : CalSt) : (s.setCal i v).hst = s.hst := rfl
@[simp] theorem setCal_eth (i : Nat) (v : CalSt) : (s.setCal i v).eth = s.eth := rfl
@[simp] theorem setCal_pwm (i : Nat) (v : CalSt) : (s.setCal i v).pwm = s.pwm := rfl
@[simp] theorem setCal_free (i : Nat) (v : CalSt) : (s.setCal i v).free = s.free := rfl

/-! ### wr8 -/

@[simp] theorem wr8_pending (a : Nat) (b : Byte) : (s.wr8 a b).pending = s.pending := rfl
@[simp] theorem wr8_now (a : Nat) (b : Byte) : (s.wr8 a b).now = s.now := rfl
@[simp] theorem wr8_regs (a : Nat) (b : Byte) : (s.wr8 a b).regs = s.regs := rfl
@[simp] theorem wr8_eff (a : Nat) (b : Byte) : (s.wr8 a b).eff = s.eff := rfl
@[simp] theorem wr8_hiLatch (a : Nat) (b : Byte) : (s.wr8 a b).hiLatch = s.hiLatch := rfl
@[simp] theorem wr8_hiStage (a : Nat) (b : Byte) : (s.wr8 a b).hiStage = s.hiStage := rfl
@[simp] theorem wr8_flash (a : Nat) (b : Byte) : (s.wr8 a b).flash = s.flash := rfl
@[simp] theorem wr8_ecc (a : Nat) (b : Byte) : (s.wr8 a b).ecc = s.ecc := rfl
@[simp] theorem wr8_crk (a : Nat) (b : Byte) : (s.wr8 a b).crk = s.crk := rfl
@[simp] theorem wr8_cells (a : Nat) (b : Byte) : (s.wr8 a b).cells = s.cells := rfl
@[simp] theorem wr8_arms (a : Nat) (b : Byte) : (s.wr8 a b).arms = s.arms := rfl
@[simp] theorem wr8_dcal (a : Nat) (b : Byte) : (s.wr8 a b).dcal = s.dcal := rfl
@[simp] theorem wr8_hrn (a : Nat) (b : Byte) : (s.wr8 a b).hrn = s.hrn := rfl
@[simp] theorem wr8_hooks (a : Nat) (b : Byte) : (s.wr8 a b).hooks = s.hooks := rfl
@[simp] theorem wr8_convs (a : Nat) (b : Byte) : (s.wr8 a b).convs = s.convs := rfl
@[simp] theorem wr8_pairs (a : Nat) (b : Byte) : (s.wr8 a b).pairs = s.pairs := rfl
@[simp] theorem wr8_lcw (a : Nat) (b : Byte) : (s.wr8 a b).lcw = s.lcw := rfl
@[simp] theorem wr8_dfy (a : Nat) (b : Byte) : (s.wr8 a b).dfy = s.dfy := rfl
@[simp] theorem wr8_ffy (a : Nat) (b : Byte) : (s.wr8 a b).ffy = s.ffy := rfl
@[simp] theorem wr8_cores (a : Nat) (b : Byte) : (s.wr8 a b).cores = s.cores := rfl
@[simp] theorem wr8_tasks (a : Nat) (b : Byte) : (s.wr8 a b).tasks = s.tasks := rfl
@[simp] theorem wr8_hive (a : Nat) (b : Byte) : (s.wr8 a b).hive = s.hive := rfl
@[simp] theorem wr8_mth (a : Nat) (b : Byte) : (s.wr8 a b).mth = s.mth := rfl
@[simp] theorem wr8_trm (a : Nat) (b : Byte) : (s.wr8 a b).trm = s.trm := rfl
@[simp] theorem wr8_twn (a : Nat) (b : Byte) : (s.wr8 a b).twn = s.twn := rfl
@[simp] theorem wr8_mts (a : Nat) (b : Byte) : (s.wr8 a b).mts = s.mts := rfl
@[simp] theorem wr8_ccd (a : Nat) (b : Byte) : (s.wr8 a b).ccd = s.ccd := rfl
@[simp] theorem wr8_mod (a : Nat) (b : Byte) : (s.wr8 a b).mod = s.mod := rfl
@[simp] theorem wr8_hst (a : Nat) (b : Byte) : (s.wr8 a b).hst = s.hst := rfl
@[simp] theorem wr8_eth (a : Nat) (b : Byte) : (s.wr8 a b).eth = s.eth := rfl
@[simp] theorem wr8_pwm (a : Nat) (b : Byte) : (s.wr8 a b).pwm = s.pwm := rfl
@[simp] theorem wr8_free (a : Nat) (b : Byte) : (s.wr8 a b).free = s.free := rfl

/-! ### reach -/

@[simp] theorem reach_pending (t : Nat) : (s.reach t).pending = s.pending := rfl
@[simp] theorem reach_regs (t : Nat) : (s.reach t).regs = s.regs := rfl
@[simp] theorem reach_eff (t : Nat) : (s.reach t).eff = s.eff := rfl
@[simp] theorem reach_hiLatch (t : Nat) : (s.reach t).hiLatch = s.hiLatch := rfl
@[simp] theorem reach_hiStage (t : Nat) : (s.reach t).hiStage = s.hiStage := rfl
@[simp] theorem reach_mem (t : Nat) : (s.reach t).mem = s.mem := rfl
@[simp] theorem reach_flash (t : Nat) : (s.reach t).flash = s.flash := rfl
@[simp] theorem reach_ecc (t : Nat) : (s.reach t).ecc = s.ecc := rfl
@[simp] theorem reach_crk (t : Nat) : (s.reach t).crk = s.crk := rfl
@[simp] theorem reach_cells (t : Nat) : (s.reach t).cells = s.cells := rfl
@[simp] theorem reach_arms (t : Nat) : (s.reach t).arms = s.arms := rfl
@[simp] theorem reach_dcal (t : Nat) : (s.reach t).dcal = s.dcal := rfl
@[simp] theorem reach_hrn (t : Nat) : (s.reach t).hrn = s.hrn := rfl
@[simp] theorem reach_hooks (t : Nat) : (s.reach t).hooks = s.hooks := rfl
@[simp] theorem reach_convs (t : Nat) : (s.reach t).convs = s.convs := rfl
@[simp] theorem reach_pairs (t : Nat) : (s.reach t).pairs = s.pairs := rfl
@[simp] theorem reach_lcw (t : Nat) : (s.reach t).lcw = s.lcw := rfl
@[simp] theorem reach_dfy (t : Nat) : (s.reach t).dfy = s.dfy := rfl
@[simp] theorem reach_ffy (t : Nat) : (s.reach t).ffy = s.ffy := rfl
@[simp] theorem reach_cores (t : Nat) : (s.reach t).cores = s.cores := rfl
@[simp] theorem reach_tasks (t : Nat) : (s.reach t).tasks = s.tasks := rfl
@[simp] theorem reach_hive (t : Nat) : (s.reach t).hive = s.hive := rfl
@[simp] theorem reach_mth (t : Nat) : (s.reach t).mth = s.mth := rfl
@[simp] theorem reach_trm (t : Nat) : (s.reach t).trm = s.trm := rfl
@[simp] theorem reach_twn (t : Nat) : (s.reach t).twn = s.twn := rfl
@[simp] theorem reach_mts (t : Nat) : (s.reach t).mts = s.mts := rfl
@[simp] theorem reach_ccd (t : Nat) : (s.reach t).ccd = s.ccd := rfl
@[simp] theorem reach_mod (t : Nat) : (s.reach t).mod = s.mod := rfl
@[simp] theorem reach_hst (t : Nat) : (s.reach t).hst = s.hst := rfl
@[simp] theorem reach_eth (t : Nat) : (s.reach t).eth = s.eth := rfl
@[simp] theorem reach_pwm (t : Nat) : (s.reach t).pwm = s.pwm := rfl
@[simp] theorem reach_free (t : Nat) : (s.reach t).free = s.free := rfl

/-! ### draw -/

@[simp] theorem draw_pending : (s.draw).pending = s.pending := rfl
@[simp] theorem draw_now : (s.draw).now = s.now := rfl
@[simp] theorem draw_regs : (s.draw).regs = s.regs := rfl
@[simp] theorem draw_eff : (s.draw).eff = s.eff := rfl
@[simp] theorem draw_hiLatch : (s.draw).hiLatch = s.hiLatch := rfl
@[simp] theorem draw_hiStage : (s.draw).hiStage = s.hiStage := rfl
@[simp] theorem draw_mem : (s.draw).mem = s.mem := rfl
@[simp] theorem draw_flash : (s.draw).flash = s.flash := rfl
@[simp] theorem draw_ecc : (s.draw).ecc = s.ecc := rfl
@[simp] theorem draw_crk : (s.draw).crk = s.crk := rfl
@[simp] theorem draw_cells : (s.draw).cells = s.cells := rfl
@[simp] theorem draw_arms : (s.draw).arms = s.arms := rfl
@[simp] theorem draw_dcal : (s.draw).dcal = s.dcal := rfl
@[simp] theorem draw_hrn : (s.draw).hrn = s.hrn := rfl
@[simp] theorem draw_hooks : (s.draw).hooks = s.hooks := rfl
@[simp] theorem draw_convs : (s.draw).convs = s.convs := rfl
@[simp] theorem draw_pairs : (s.draw).pairs = s.pairs := rfl
@[simp] theorem draw_lcw : (s.draw).lcw = s.lcw := rfl
@[simp] theorem draw_dfy : (s.draw).dfy = s.dfy := rfl
@[simp] theorem draw_ffy : (s.draw).ffy = s.ffy := rfl
@[simp] theorem draw_cores : (s.draw).cores = s.cores := rfl
@[simp] theorem draw_tasks : (s.draw).tasks = s.tasks := rfl
@[simp] theorem draw_hive : (s.draw).hive = s.hive := rfl
@[simp] theorem draw_mth : (s.draw).mth = s.mth := rfl
@[simp] theorem draw_trm : (s.draw).trm = s.trm := rfl
@[simp] theorem draw_twn : (s.draw).twn = s.twn := rfl
@[simp] theorem draw_mts : (s.draw).mts = s.mts := rfl
@[simp] theorem draw_ccd : (s.draw).ccd = s.ccd := rfl
@[simp] theorem draw_mod : (s.draw).mod = s.mod := rfl
@[simp] theorem draw_hst : (s.draw).hst = s.hst := rfl
@[simp] theorem draw_eth : (s.draw).eth = s.eth := rfl
@[simp] theorem draw_pwm : (s.draw).pwm = s.pwm := rfl

/-! ### mothFire -/

@[simp] theorem mothFire_pending (b : Nat) : (s.mothFire b).pending = s.pending := rfl
@[simp] theorem mothFire_now (b : Nat) : (s.mothFire b).now = s.now := rfl
@[simp] theorem mothFire_regs (b : Nat) : (s.mothFire b).regs = s.regs := rfl
@[simp] theorem mothFire_eff (b : Nat) : (s.mothFire b).eff = s.eff := rfl
@[simp] theorem mothFire_hiLatch (b : Nat) : (s.mothFire b).hiLatch = s.hiLatch := rfl
@[simp] theorem mothFire_hiStage (b : Nat) : (s.mothFire b).hiStage = s.hiStage := rfl
@[simp] theorem mothFire_mem (b : Nat) : (s.mothFire b).mem = s.mem := rfl
@[simp] theorem mothFire_flash (b : Nat) : (s.mothFire b).flash = s.flash := rfl
@[simp] theorem mothFire_ecc (b : Nat) : (s.mothFire b).ecc = s.ecc := rfl
@[simp] theorem mothFire_crk (b : Nat) : (s.mothFire b).crk = s.crk := rfl
@[simp] theorem mothFire_cells (b : Nat) : (s.mothFire b).cells = s.cells := rfl
@[simp] theorem mothFire_arms (b : Nat) : (s.mothFire b).arms = s.arms := rfl
@[simp] theorem mothFire_dcal (b : Nat) : (s.mothFire b).dcal = s.dcal := rfl
@[simp] theorem mothFire_hrn (b : Nat) : (s.mothFire b).hrn = s.hrn := rfl
@[simp] theorem mothFire_hooks (b : Nat) : (s.mothFire b).hooks = s.hooks := rfl
@[simp] theorem mothFire_convs (b : Nat) : (s.mothFire b).convs = s.convs := rfl
@[simp] theorem mothFire_pairs (b : Nat) : (s.mothFire b).pairs = s.pairs := rfl
@[simp] theorem mothFire_lcw (b : Nat) : (s.mothFire b).lcw = s.lcw := rfl
@[simp] theorem mothFire_dfy (b : Nat) : (s.mothFire b).dfy = s.dfy := rfl
@[simp] theorem mothFire_ffy (b : Nat) : (s.mothFire b).ffy = s.ffy := rfl
@[simp] theorem mothFire_cores (b : Nat) : (s.mothFire b).cores = s.cores := rfl
@[simp] theorem mothFire_tasks (b : Nat) : (s.mothFire b).tasks = s.tasks := rfl
@[simp] theorem mothFire_hive (b : Nat) : (s.mothFire b).hive = s.hive := rfl
@[simp] theorem mothFire_trm (b : Nat) : (s.mothFire b).trm = s.trm := rfl
@[simp] theorem mothFire_twn (b : Nat) : (s.mothFire b).twn = s.twn := rfl
@[simp] theorem mothFire_mts (b : Nat) : (s.mothFire b).mts = s.mts := rfl
@[simp] theorem mothFire_ccd (b : Nat) : (s.mothFire b).ccd = s.ccd := rfl
@[simp] theorem mothFire_mod (b : Nat) : (s.mothFire b).mod = s.mod := rfl
@[simp] theorem mothFire_hst (b : Nat) : (s.mothFire b).hst = s.hst := rfl
@[simp] theorem mothFire_eth (b : Nat) : (s.mothFire b).eth = s.eth := rfl
@[simp] theorem mothFire_pwm (b : Nat) : (s.mothFire b).pwm = s.pwm := rfl
@[simp] theorem mothFire_free (b : Nat) : (s.mothFire b).free = s.free := rfl

/-! ### clearPoison -/

@[simp] theorem clearPoison_pending (a n : Nat) : (s.clearPoison a n).pending = s.pending := rfl
@[simp] theorem clearPoison_now (a n : Nat) : (s.clearPoison a n).now = s.now := rfl
@[simp] theorem clearPoison_regs (a n : Nat) : (s.clearPoison a n).regs = s.regs := rfl
@[simp] theorem clearPoison_eff (a n : Nat) : (s.clearPoison a n).eff = s.eff := rfl
@[simp] theorem clearPoison_hiLatch (a n : Nat) : (s.clearPoison a n).hiLatch = s.hiLatch := rfl
@[simp] theorem clearPoison_hiStage (a n : Nat) : (s.clearPoison a n).hiStage = s.hiStage := rfl
@[simp] theorem clearPoison_mem (a n : Nat) : (s.clearPoison a n).mem = s.mem := rfl
@[simp] theorem clearPoison_flash (a n : Nat) : (s.clearPoison a n).flash = s.flash := rfl
@[simp] theorem clearPoison_crk (a n : Nat) : (s.clearPoison a n).crk = s.crk := rfl
@[simp] theorem clearPoison_cells (a n : Nat) : (s.clearPoison a n).cells = s.cells := rfl
@[simp] theorem clearPoison_arms (a n : Nat) : (s.clearPoison a n).arms = s.arms := rfl
@[simp] theorem clearPoison_dcal (a n : Nat) : (s.clearPoison a n).dcal = s.dcal := rfl
@[simp] theorem clearPoison_hrn (a n : Nat) : (s.clearPoison a n).hrn = s.hrn := rfl
@[simp] theorem clearPoison_hooks (a n : Nat) : (s.clearPoison a n).hooks = s.hooks := rfl
@[simp] theorem clearPoison_convs (a n : Nat) : (s.clearPoison a n).convs = s.convs := rfl
@[simp] theorem clearPoison_pairs (a n : Nat) : (s.clearPoison a n).pairs = s.pairs := rfl
@[simp] theorem clearPoison_lcw (a n : Nat) : (s.clearPoison a n).lcw = s.lcw := rfl
@[simp] theorem clearPoison_dfy (a n : Nat) : (s.clearPoison a n).dfy = s.dfy := rfl
@[simp] theorem clearPoison_ffy (a n : Nat) : (s.clearPoison a n).ffy = s.ffy := rfl
@[simp] theorem clearPoison_cores (a n : Nat) : (s.clearPoison a n).cores = s.cores := rfl
@[simp] theorem clearPoison_tasks (a n : Nat) : (s.clearPoison a n).tasks = s.tasks := rfl
@[simp] theorem clearPoison_hive (a n : Nat) : (s.clearPoison a n).hive = s.hive := rfl
@[simp] theorem clearPoison_mth (a n : Nat) : (s.clearPoison a n).mth = s.mth := rfl
@[simp] theorem clearPoison_trm (a n : Nat) : (s.clearPoison a n).trm = s.trm := rfl
@[simp] theorem clearPoison_twn (a n : Nat) : (s.clearPoison a n).twn = s.twn := rfl
@[simp] theorem clearPoison_mts (a n : Nat) : (s.clearPoison a n).mts = s.mts := rfl
@[simp] theorem clearPoison_ccd (a n : Nat) : (s.clearPoison a n).ccd = s.ccd := rfl
@[simp] theorem clearPoison_mod (a n : Nat) : (s.clearPoison a n).mod = s.mod := rfl
@[simp] theorem clearPoison_hst (a n : Nat) : (s.clearPoison a n).hst = s.hst := rfl
@[simp] theorem clearPoison_eth (a n : Nat) : (s.clearPoison a n).eth = s.eth := rfl
@[simp] theorem clearPoison_pwm (a n : Nat) : (s.clearPoison a n).pwm = s.pwm := rfl
@[simp] theorem clearPoison_free (a n : Nat) : (s.clearPoison a n).free = s.free := rfl

/-! ### A part read after it is written -/

@[simp] theorem cell_setCell (i : Nat) (v : CellSt) : (s.setCell i v).cell i = v := by
  simp [State.cell, State.setCell]
@[simp] theorem cell_setCell_ne (i j : Nat) (v : CellSt) (h : j ≠ i) : (s.setCell i v).cell j = s.cell j := by
  simp [State.cell, State.setCell, h]
@[simp] theorem arm_setArm (i : Nat) (v : ArmSt) : (s.setArm i v).arm i = v := by
  simp [State.arm, State.setArm]
@[simp] theorem arm_setArm_ne (i j : Nat) (v : ArmSt) (h : j ≠ i) : (s.setArm i v).arm j = s.arm j := by
  simp [State.arm, State.setArm, h]
@[simp] theorem conv_setConv (i : Nat) (v : ConvSt) : (s.setConv i v).conv i = v := by
  simp [State.conv, State.setConv]
@[simp] theorem conv_setConv_ne (i j : Nat) (v : ConvSt) (h : j ≠ i) : (s.setConv i v).conv j = s.conv j := by
  simp [State.conv, State.setConv, h]
@[simp] theorem pair_setPair (i : Nat) (v : PairSt) : (s.setPair i v).pair i = v := by
  simp [State.pair, State.setPair]
@[simp] theorem pair_setPair_ne (i j : Nat) (v : PairSt) (h : j ≠ i) : (s.setPair i v).pair j = s.pair j := by
  simp [State.pair, State.setPair, h]
@[simp] theorem lslot_setLslot (i : Nat) (v : LcwSlot) : (s.setLslot i v).lslot i = v := by
  simp [State.lslot, State.setLslot]
@[simp] theorem lslot_setLslot_ne (i j : Nat) (v : LcwSlot) (h : j ≠ i) : (s.setLslot i v).lslot j = s.lslot j := by
  simp [State.lslot, State.setLslot, h]
@[simp] theorem hook_setHook (i : Nat) (v : VecSt) : (s.setHook i v).hook i = v := by
  simp [State.hook, State.setHook]
@[simp] theorem hook_setHook_ne (i j : Nat) (v : VecSt) (h : j ≠ i) : (s.setHook i v).hook j = s.hook j := by
  simp [State.hook, State.setHook, h]
@[simp] theorem task_setTask (i : Nat) (v : TaskSt) : (s.setTask i v).task i = v := by
  simp [State.task, State.setTask]
@[simp] theorem task_setTask_ne (i j : Nat) (v : TaskSt) (h : j ≠ i) : (s.setTask i v).task j = s.task j := by
  simp [State.task, State.setTask, h]
@[simp] theorem htask_setHtask (i : Nat) (v : HTask) : (s.setHtask i v).htask i = v := by
  simp [State.htask, State.setHtask]
@[simp] theorem htask_setHtask_ne (i j : Nat) (v : HTask) (h : j ≠ i) : (s.setHtask i v).htask j = s.htask j := by
  simp [State.htask, State.setHtask, h]
@[simp] theorem hcore_setHcore (i : Nat) (v : HCore) : (s.setHcore i v).hcore i = v := by
  simp [State.hcore, State.setHcore]
@[simp] theorem hcore_setHcore_ne (i j : Nat) (v : HCore) (h : j ≠ i) : (s.setHcore i v).hcore j = s.hcore j := by
  simp [State.hcore, State.setHcore, h]
@[simp] theorem func_setFunc (i : Nat) (v : FuncSt) : (s.setFunc i v).func i = v := by
  simp [State.func, State.setFunc]
@[simp] theorem func_setFunc_ne (i j : Nat) (v : FuncSt) (h : j ≠ i) : (s.setFunc i v).func j = s.func j := by
  simp [State.func, State.setFunc, h]
@[simp] theorem dma_setDma (i : Nat) (v : DmaSt) : (s.setDma i v).dma i = v := by
  simp [State.dma, State.setDma]
@[simp] theorem dma_setDma_ne (i j : Nat) (v : DmaSt) (h : j ≠ i) : (s.setDma i v).dma j = s.dma j := by
  simp [State.dma, State.setDma, h]
@[simp] theorem ethp_setEthp (i : Nat) (v : EthSt) : (s.setEthp i v).ethp i = v := by
  simp [State.ethp, State.setEthp]
@[simp] theorem ethp_setEthp_ne (i j : Nat) (v : EthSt) (h : j ≠ i) : (s.setEthp i v).ethp j = s.ethp j := by
  simp [State.ethp, State.setEthp, h]
@[simp] theorem pwmCh_setPwmCh (i : Nat) (v : PwmSt) : (s.setPwmCh i v).pwmCh i = v := by
  simp [State.pwmCh, State.setPwmCh]
@[simp] theorem pwmCh_setPwmCh_ne (i j : Nat) (v : PwmSt) (h : j ≠ i) : (s.setPwmCh i v).pwmCh j = s.pwmCh j := by
  simp [State.pwmCh, State.setPwmCh, h]
@[simp] theorem cal_setCal (i : Nat) (v : CalSt) : (s.setCal i v).cal i = v := by
  simp [State.cal, State.setCal]
@[simp] theorem cal_setCal_ne (i j : Nat) (v : CalSt) (h : j ≠ i) : (s.setCal i v).cal j = s.cal j := by
  simp [State.cal, State.setCal, h]
@[simp] theorem imp_setImp (i : Nat) (v : ImpSt) : (s.setImp i v).imp i = v := by
  simp [State.imp, State.setImp]
@[simp] theorem imp_setImp_ne (i j : Nat) (v : ImpSt) (h : j ≠ i) : (s.setImp i v).imp j = s.imp j := by
  simp [State.imp, State.setImp, h]
@[simp] theorem lane_setLane (p l : Nat) (v : LaneSt) : (s.setLane p l v).lane p l = v := by
  simp [State.lane, State.setLane]
theorem lane_setLane_ne (p l q k : Nat) (v : LaneSt) (h : laneKey q k ≠ laneKey p l) :
    (s.setLane p l v).lane q k = s.lane q k := by
  simp [State.lane, State.setLane, h]

end Sys2Proof.Machine
end

