-- ==== Sys2Proof/Laws/Regs.lean ====
section
/-!
SUPPORT. Registers and fields: a read after a write, of the same field and of one that does not
overlap it.
-/

namespace Sys2Proof.Machine

@[simp] theorem reg_setReg (s : State) (a : Nat) (v : Word) : (s.setReg a v).reg a = v := by
  simp [State.reg, State.setReg]

@[simp] theorem reg_setReg_ne (s : State) (a b : Nat) (v : Word) (h : b ≠ a) :
    (s.setReg a v).reg b = s.reg b := by
  simp [State.reg, State.setReg, h]

@[simp] theorem reg_setFld_ne (s : State) (x : Fld) (v b : Nat) (h : b ≠ x.addr) :
    (s.setFld x v).reg b = s.reg b := reg_setReg_ne _ _ _ _ h

@[simp] theorem reg_setFlag_ne (s : State) (x : Fld) (v : Bool) (b : Nat) (h : b ≠ x.addr) :
    (s.setFlag x v).reg b = s.reg b := reg_setReg_ne _ _ _ _ h

/-- A bit of a mask of `w` bits from `lo` on. -/
theorem getLsbD_maskOf (lo w i : Nat) :
    (maskOf lo w).getLsbD i = (decide (i < 32) && decide (lo ≤ i) && decide (i < lo + w)) := by
  simp only [maskOf, BitVec.getLsbD_ofNat, Nat.testBit_shiftLeft, Nat.testBit_two_pow_sub_one]
  by_cases h1 : i < 32 <;> by_cases h2 : lo ≤ i <;> simp [h1, h2] <;> omega

/-- A bit of a word with a field put in. -/
theorem getLsbD_putBits (x : Word) (lo w v i : Nat) :
    (putBits x lo w v).getLsbD i =
      if lo ≤ i ∧ i < lo + w then decide (i < 32) && v.testBit (i - lo) else x.getLsbD i := by
  simp only [putBits, BitVec.getLsbD_or, BitVec.getLsbD_and, BitVec.getLsbD_not, getLsbD_maskOf,
    BitVec.getLsbD_ofNat, Nat.testBit_shiftLeft, Nat.testBit_mod_two_pow]
  by_cases h0 : i < 32
  · by_cases h1 : lo ≤ i <;> by_cases h2 : i < lo + w <;> simp [h0, h1, h2] <;> omega
  · have hx : x.getLsbD i = false := BitVec.getLsbD_of_ge x i (by omega)
    simp [h0, hx]

/-- A bit of a field's value. -/
theorem testBit_bitsOf (x : Word) (lo w i : Nat) :
    (bitsOf x lo w).testBit i = (decide (i < w) && x.getLsbD (lo + i)) := by
  simp [bitsOf, Nat.testBit_mod_two_pow, Nat.testBit_shiftRight, BitVec.getLsbD]

/-- A field reads what was put in it. -/
theorem bitsOf_putBits (x : Word) (lo w v : Nat) (h : lo + w ≤ 32) :
    bitsOf (putBits x lo w v) lo w = v % 2 ^ w := by
  refine Nat.eq_of_testBit_eq fun i => ?_
  rw [testBit_bitsOf, getLsbD_putBits, Nat.testBit_mod_two_pow]
  by_cases hi : i < w
  · have h1 : lo ≤ lo + i ∧ lo + i < lo + w := by omega
    have h2 : lo + i < 32 := by omega
    simp [hi, h1, h2]
  · simp [hi]

/-- A field that does not overlap reads as before. -/
theorem bitsOf_putBits_apart (x : Word) (lo w v lo' w' : Nat) (h : lo' + w' ≤ lo ∨ lo + w ≤ lo') :
    bitsOf (putBits x lo w v) lo' w' = bitsOf x lo' w' := by
  refine Nat.eq_of_testBit_eq fun i => ?_
  rw [testBit_bitsOf, testBit_bitsOf, getLsbD_putBits]
  by_cases hi : i < w'
  · rw [if_neg (by omega)]
  · simp [hi]

theorem fld_setFld (s : State) (x : Fld) (v : Nat) (h : x.lo + x.width ≤ 32) :
    (s.setFld x v).fld x = v % 2 ^ x.width := by
  simp only [State.fld, State.setFld, reg_setReg]
  exact bitsOf_putBits _ _ _ _ h

theorem fld_setFld_reg (s : State) (x y : Fld) (v : Nat) (h : y.addr ≠ x.addr) :
    (s.setFld x v).fld y = s.fld y := by
  simp only [State.fld, reg_setFld_ne s x v _ h]

theorem fld_setFld_apart (s : State) (x y : Fld) (v : Nat)
    (h : y.addr ≠ x.addr ∨ y.lo + y.width ≤ x.lo ∨ x.lo + x.width ≤ y.lo) :
    (s.setFld x v).fld y = s.fld y := by
  by_cases ha : y.addr = x.addr
  · have h' := h.resolve_left (fun hn => hn ha)
    simp only [State.fld, State.setFld, ha, reg_setReg]
    exact bitsOf_putBits_apart _ _ _ _ _ _ h'
  · exact fld_setFld_reg s x y v ha

theorem fld_setFlag_apart (s : State) (x y : Fld) (b : Bool)
    (h : y.addr ≠ x.addr ∨ y.lo + y.width ≤ x.lo ∨ x.lo + x.width ≤ y.lo) :
    (s.setFlag x b).fld y = s.fld y := fld_setFld_apart s x y _ h

theorem flag_setFlag (s : State) (x : Fld) (b : Bool) (hw : x.width = 1) (h : x.lo < 32) :
    (s.setFlag x b).flag x = b := by
  simp only [State.flag, State.setFlag, fld_setFld s x _ (by omega), hw]
  cases b <;> rfl

theorem flag_setFld_apart (s : State) (x y : Fld) (v : Nat)
    (h : y.addr ≠ x.addr ∨ y.lo + y.width ≤ x.lo ∨ x.lo + x.width ≤ y.lo) :
    (s.setFld x v).flag y = s.flag y := by
  simp only [State.flag, fld_setFld_apart s x y v h]

theorem flag_setFlag_apart (s : State) (x y : Fld) (b : Bool)
    (h : y.addr ≠ x.addr ∨ y.lo + y.width ≤ x.lo ∨ x.lo + x.width ≤ y.lo) :
    (s.setFlag x b).flag y = s.flag y := flag_setFld_apart s x y _ h

/-- A counter stops at its largest value. -/
theorem fld_bump (s : State) (x : Fld) (n : Nat) (h : x.lo + x.width ≤ 32) :
    (s.bump x n).fld x = min (2 ^ x.width - 1) (s.fld x + n) := by
  have hp : 0 < 2 ^ x.width := Nat.two_pow_pos _
  simp only [State.bump, fld_setFld s x _ h, satAdd]
  exact Nat.mod_eq_of_lt (by omega)

end Sys2Proof.Machine
end

