-- ==== Sys2Proof/Laws/Memory.lean ====
section
/-!
SUPPORT. Memory: a byte read after a write, what a store of bytes changes, and the canonical form that
every operation over memory keeps.
-/

namespace Sys2Proof.Machine

@[simp] theorem rd8_wr8 (s : State) (a : Nat) (b : Byte) : (s.wr8 a b).rd8 a = b := by
  simp [State.rd8, State.wr8]

@[simp] theorem rd8_wr8_ne (s : State) (a k : Nat) (b : Byte) (h : k ≠ a) :
    (s.wr8 a b).rd8 k = s.rd8 k := by
  simp [State.rd8, State.wr8, h]

theorem wr8_wf (s : State) (a : Nat) (b : Byte) (h : Memory.wf s.mem = true) :
    Memory.wf (s.wr8 a b).mem = true := tset_wf _ a b s.mem h

/-- A byte read after one was written where its bank lets it: the byte there, every other as before. -/
theorem rd8_put (s : State) (a k : Nat) (b : Byte) :
    (if s.bankOpen a then s.wr8 a b else s).rd8 k = if k = a ∧ s.bankOpen a = true then b else s.rd8 k := by
  by_cases ho : s.bankOpen a = true
  · rw [if_pos ho]
    by_cases hk : k = a
    · subst hk; simp [ho]
    · simp [hk]
  · simp [ho]

@[simp] theorem bankOpen_wr8 (s : State) (a k : Nat) (b : Byte) : (s.wr8 a b).bankOpen k = s.bankOpen k := rfl

theorem bankOpen_put (s : State) (a k : Nat) (b : Byte) :
    (if s.bankOpen a then s.wr8 a b else s).bankOpen k = s.bankOpen k := by
  split <;> rfl

/-- A byte read after bytes were written: those in banks that are in use are there. -/
theorem rd8_wrBytes (l : List Byte) : ∀ (s : State) (a k : Nat),
    (s.wrBytes a l).rd8 k =
      if a ≤ k ∧ k < a + l.length ∧ s.bankOpen k = true then l.getD (k - a) 0 else s.rd8 k := by
  induction l with
  | nil => intro s a k; rw [if_neg (by simp; omega)]; rfl
  | cons b r ih =>
    intro s a k
    rw [State.wrBytes, ih, bankOpen_put, rd8_put]
    rcases Nat.lt_trichotomy k a with h | h | h
    · rw [if_neg (by omega), if_neg (by omega), if_neg (by omega)]
    · subst h
      rw [if_neg (by omega)]
      by_cases ho : s.bankOpen k = true
      · rw [if_pos ⟨rfl, ho⟩, if_pos ⟨Nat.le_refl _, by simp, ho⟩, Nat.sub_self, List.getD_cons_zero]
      · rw [if_neg (fun x => ho x.2), if_neg (fun x => ho x.2.2)]
    · have hk : k - a = (k - (a + 1)) + 1 := by omega
      rw [if_neg (c := k = a ∧ _) (by omega), hk, List.getD_cons_succ]
      congr 1
      rw [List.length_cons]
      exact propext ⟨fun x => ⟨by omega, by omega, x.2.2⟩, fun x => ⟨by omega, by omega, x.2.2⟩⟩

theorem put_wf (s : State) (a : Nat) (b : Byte) (h : Memory.wf s.mem = true) :
    Memory.wf (if s.bankOpen a then s.wr8 a b else s).mem = true := by
  split
  · exact wr8_wf s a b h
  · exact h

theorem wrBytes_wf (l : List Byte) : ∀ (s : State) (a : Nat), Memory.wf s.mem = true →
    Memory.wf (s.wrBytes a l).mem = true := by
  induction l with
  | nil => intro s a h; exact h
  | cons b r ih => intro s a h; exact ih _ _ (put_wf s a b h)

theorem put_rest (s : State) (a : Nat) (b : Byte) :
    { (if s.bankOpen a then s.wr8 a b else s) with mem := s.mem } = s := by
  split <;> rfl

/-- Writing bytes changes memory alone. -/
theorem wrBytes_rest (l : List Byte) : ∀ (s : State) (a : Nat),
    { s.wrBytes a l with mem := s.mem } = s := by
  induction l with
  | nil => intro s a; rfl
  | cons b r ih =>
    intro s a
    have := congrArg (fun t : State => { t with mem := s.mem }) (ih (if s.bankOpen a then s.wr8 a b else s) (a + 1))
    exact this.trans (put_rest s a b)

@[simp] theorem mem_consumeInj (s : State) (a : Nat) : (s.consumeInj a).mem = s.mem := by
  unfold State.consumeInj
  dsimp only
  split
  · split <;> rfl
  · rfl

@[simp] theorem mem_touchTable (s : State) (a n arm : Nat) : (s.touchTable a n arm).mem = s.mem := by
  unfold State.touchTable
  dsimp only
  split
  · split <;> rfl
  · rfl

@[simp] theorem mem_loseResv (s : State) (a n : Nat) : (s.loseResv a n).mem = s.mem := by
  unfold State.loseResv
  refine forN_keeps (fun t : State => t.mem = s.mem) _ _ _ (fun i t ht => ?_) rfl
  dsimp only
  split
  · split <;> exact ht
  · exact ht

@[simp] theorem mem_correct (s : State) (a n : Nat) : (s.correct a n).mem = s.mem := by
  unfold State.correct
  dsimp only
  split <;> rfl

@[simp] theorem mem_mergeRead (s : State) (a n : Nat) : (s.mergeRead a n).mem = s.mem := by
  unfold State.mergeRead
  repeat' split
  all_goals simp

/-- What a store leaves in memory: the bytes, written. -/
theorem mem_storeOpen (s : State) (a : Nat) (bs : List Byte) :
    (s.storeOpen a bs).mem = (s.wrBytes a bs).mem := by
  unfold State.storeOpen
  refine forN_keeps (fun t : State => t.mem = (s.wrBytes a bs).mem) 6
    (fun arm t => t.touchTable a bs.length arm) _ (fun i t ht => ?_) ?_
  · exact (mem_touchTable t a bs.length i).trans ht
  · exact (mem_loseResv _ _ _).trans ((mem_consumeInj _ _).trans (mem_mergeRead _ _ _))

/-- A store outside the closed retention SRAM: its bytes in banks that are in use read back, every other
byte as before. -/
theorem rd8_store (s : State) (a k : Nat) (bs : List Byte)
    (h : s.mod.fence = false ∨ a < 0x08000000) :
    (s.store a bs).rd8 k =
      if a ≤ k ∧ k < a + bs.length ∧ s.bankOpen k = true then bs.getD (k - a) 0 else s.rd8 k := by
  have hc : (s.mod.fence && decide (0x08000000 ≤ a)) = false := by
    rcases h with h | h
    · simp [h]
    · have : ¬ 0x08000000 ≤ a := by omega
      simp [this]
  rw [State.store, hc, ← rd8_wrBytes]
  exact congrArg (fun m => tget (fun _ => 0) m k) (mem_storeOpen s a bs)

/-- A store keeps the canonical form of memory. -/
theorem store_wf (s : State) (a : Nat) (bs : List Byte) (h : Memory.wf s.mem = true) :
    Memory.wf (s.store a bs).mem = true := by
  unfold State.store
  split
  · exact h
  · rw [mem_storeOpen]; exact wrBytes_wf bs s a h

/-- Memory has its canonical form at reset. -/
theorem reset_memory_wf : Memory.wf State.reset.mem = true := rfl

end Sys2Proof.Machine
end

