-- ==== Sys2Proof/Laws/Report.lean ====
section
/-!
SUPPORT. What a report to Cicada and a Mantis demand leave unchanged: every part of the state but the
registers, the cores, and the parts of Cicada, Mantis, Cricket, the PWM outputs, Moth and the twin.
-/

namespace Sys2Proof.Machine

/-- Only what a report may change differs. -/
def told (s t : State) : Prop := t.untold s = s

theorem told_refl (s : State) : told s s := rfl

theorem told_trans {s t u : State} (h : told s t) (g : told t u) : told s u := by
  have : u.untold s = (u.untold t).untold s := rfl
  rw [told, this, g, h]

theorem told_ite {s t u : State} (c : Prop) [Decidable c] (h : told s t) (g : told s u) :
    told s (if c then t else u) := by split <;> assumption

theorem told_setReg (s : State) (a : Nat) (v : Word) : told s (s.setReg a v) := rfl
theorem told_setFld (s : State) (x : Fld) (v : Nat) : told s (s.setFld x v) := rfl
theorem told_setFlag (s : State) (x : Fld) (b : Bool) : told s (s.setFlag x b) := rfl
theorem told_bump (s : State) (x : Fld) (n : Nat) : told s (s.bump x n) := rfl
theorem told_vector (s : State) (v : Nat) : told s (s.vector v) := rfl
theorem told_ipend (s : State) (n b : Nat) : told s (s.ipend n b) := rfl
theorem told_mothFire (s : State) (b : Nat) : told s (s.mothFire b) := rfl

theorem told_forN (s : State) (n : Nat) (f : Nat → State → State) (h : ∀ i t, told t (f i t)) :
    told s (forN n f s) :=
  forN_keeps (fun t : State => told s t) n f s (fun i t ht => told_trans ht (h i t)) (told_refl s)

theorem told_capture (s : State) (n : Nat) : told s (capture n s) := by
  unfold capture
  split <;> rfl

theorem told_captureSrc (s : State) (k : Nat) : told s (s.captureSrc k) :=
  told_forN _ _ _ (fun i t => told_ite _ (told_capture t i) (told_refl t))

theorem told_resetSpoil (s : State) : told s s.resetSpoil := rfl

theorem told_logEntry (s : State) (line detail : Nat) : told s (s.logEntry line detail) := by
  unfold State.logEntry
  dsimp only
  split <;> rfl

theorem told_ccdSum (s : State) : told s s.ccdSum := by
  unfold State.ccdSum
  dsimp only
  have h1 : told s (if (s.anyErr && !(s.flag F.CCD_SUM_ERR)) = true then (s.vector 10).captureSrc 3 else s) :=
    told_ite _ (told_trans (told_vector s 10) (told_captureSrc _ 3)) (told_refl s)
  refine told_trans h1 ?_
  generalize (if (s.anyErr && !(s.flag F.CCD_SUM_ERR)) = true then (s.vector 10).captureSrc 3 else s) = t
  split <;> rfl

theorem told_react (s : State) (line : Nat) : told s (s.react line) := by
  unfold State.react
  dsimp only
  have h1 : told s (if decide (1 ≤ s.fld (lineClass line)) = true then
      forN 8 (fun n s => if s.flagBit F.CCD_CTL_CORES n = true then s.ipend n 2 else s) s else s) :=
    told_ite _ (told_forN _ _ _ (fun i t => told_ite _ (told_ipend t i 2) (told_refl t))) (told_refl s)
  refine told_trans h1 ?_
  generalize (if decide (1 ≤ s.fld (lineClass line)) = true then
      forN 8 (fun n s => if s.flagBit F.CCD_CTL_CORES n = true then s.ipend n 2 else s) s else s) = t
  split <;> split <;> split <;> rfl

theorem told_reportBase (s : State) (line detail : Nat) : told s (s.reportBase line detail) := by
  unfold State.reportBase
  dsimp only
  refine told_trans ?_ (told_ccdSum _)
  refine told_trans ?_ (told_react _ _)
  have h1 : told s (if s.flag (lineStat line) = true then s.bump F.CCD_SUPP_VAL 1
      else s.logEntry line detail) := told_ite _ rfl (told_logEntry _ _ _)
  refine told_trans h1 ?_
  generalize (if s.flag (lineStat line) = true then s.bump F.CCD_SUPP_VAL 1
      else s.logEntry line detail) = t
  split
  · rfl
  · split
    · rfl
    · split <;> rfl

theorem told_hizAll (s : State) (f : PwmSt → PwmSt) : told s (s.hizAll f) :=
  told_forN _ _ _ (fun _ _ => rfl)

theorem told_demandLatch (s : State) (src : Nat) : told s (s.demandLatch src) := by
  unfold State.demandLatch
  dsimp only
  split <;> rfl

theorem told_demandBlock (s : State) (src : Nat) : told s (s.demandBlock src) := by
  unfold State.demandBlock
  dsimp only
  have h1 : told s (if (src != 20) = true then
      { s.setFlag F.MTS_STAT_BLOCK_ALL true with
        crk := { (s.setFlag F.MTS_STAT_BLOCK_ALL true).crk with mtsTrip := true } }
      else s.setFlag F.MTS_STAT_BLOCK_ALL true) := told_ite _ rfl rfl
  exact told_ite _ (told_trans h1 (told_hizAll _ _)) h1

theorem told_demandBase (s : State) (src act : Nat) : told s (s.demandBase src act) := by
  unfold State.demandBase
  dsimp only
  have h1 : told s (if act.testBit 0 = true then (s.demandLatch src).demandBlock src
      else s.demandLatch src) :=
    told_ite _ (told_trans (told_demandLatch s src) (told_demandBlock _ _)) (told_demandLatch s src)
  refine told_trans h1 ?_
  generalize (if act.testBit 0 = true then (s.demandLatch src).demandBlock src else s.demandLatch src) = t
  exact told_ite _ (told_trans (t := (t.demandTrip (act / 16 % 16)).mothFire 2) rfl (told_captureSrc _ 4)) rfl

theorem told_demandTold (s : State) (src act : Nat) : told s (s.demandTold src act) := by
  unfold State.demandTold
  exact told_ite _ (told_trans (told_demandBase _ _ _) (told_reportBase _ _ _)) (told_demandBase _ _ _)

/-- A report changes only what it may. -/
theorem told_report (s : State) (line detail : Nat) : told s (s.report line detail) := by
  unfold State.report
  exact told_ite _ (told_trans (told_reportBase _ _ _)
    (told_ite _ (told_resetSpoil _) (told_demandTold _ _ _))) (told_reportBase _ _ _)

/-- A Mantis demand changes only what a report may. -/
theorem told_mtsDemand (s : State) (src act : Nat) : told s (s.mtsDemand src act) := by
  unfold State.mtsDemand
  split
  · rfl
  · exact told_ite _ (told_demandBase _ _ _) (told_trans (told_demandBase _ _ _) (told_report _ _ _))

/-! ### The parts a report leaves -/

@[simp] theorem report_pending (s : State) (l d : Nat) : (s.report l d).pending = s.pending := by
  have h := congrArg State.pending (told_report s l d); exact h
@[simp] theorem report_now (s : State) (l d : Nat) : (s.report l d).now = s.now := by
  have h := congrArg State.now (told_report s l d); exact h
@[simp] theorem report_eff (s : State) (l d : Nat) : (s.report l d).eff = s.eff := by
  have h := congrArg State.eff (told_report s l d); exact h
@[simp] theorem report_hiLatch (s : State) (l d : Nat) : (s.report l d).hiLatch = s.hiLatch := by
  have h := congrArg State.hiLatch (told_report s l d); exact h
@[simp] theorem report_hiStage (s : State) (l d : Nat) : (s.report l d).hiStage = s.hiStage := by
  have h := congrArg State.hiStage (told_report s l d); exact h
@[simp] theorem report_mem (s : State) (l d : Nat) : (s.report l d).mem = s.mem := by
  have h := congrArg State.mem (told_report s l d); exact h
@[simp] theorem report_flash (s : State) (l d : Nat) : (s.report l d).flash = s.flash := by
  have h := congrArg State.flash (told_report s l d); exact h
@[simp] theorem report_ecc (s : State) (l d : Nat) : (s.report l d).ecc = s.ecc := by
  have h := congrArg State.ecc (told_report s l d); exact h
@[simp] theorem report_cells (s : State) (l d : Nat) : (s.report l d).cells = s.cells := by
  have h := congrArg State.cells (told_report s l d); exact h
@[simp] theorem report_arms (s : State) (l d : Nat) : (s.report l d).arms = s.arms := by
  have h := congrArg State.arms (told_report s l d); exact h
@[simp] theorem report_dcal (s : State) (l d : Nat) : (s.report l d).dcal = s.dcal := by
  have h := congrArg State.dcal (told_report s l d); exact h
@[simp] theorem report_hrn (s : State) (l d : Nat) : (s.report l d).hrn = s.hrn := by
  have h := congrArg State.hrn (told_report s l d); exact h
@[simp] theorem report_hooks (s : State) (l d : Nat) : (s.report l d).hooks = s.hooks := by
  have h := congrArg State.hooks (told_report s l d); exact h
@[simp] theorem report_convs (s : State) (l d : Nat) : (s.report l d).convs = s.convs := by
  have h := congrArg State.convs (told_report s l d); exact h
@[simp] theorem report_pairs (s : State) (l d : Nat) : (s.report l d).pairs = s.pairs := by
  have h := congrArg State.pairs (told_report s l d); exact h
@[simp] theorem report_lcw (s : State) (l d : Nat) : (s.report l d).lcw = s.lcw := by
  have h := congrArg State.lcw (told_report s l d); exact h
@[simp] theorem report_dfy (s : State) (l d : Nat) : (s.report l d).dfy = s.dfy := by
  have h := congrArg State.dfy (told_report s l d); exact h
@[simp] theorem report_ffy (s : State) (l d : Nat) : (s.report l d).ffy = s.ffy := by
  have h := congrArg State.ffy (told_report s l d); exact h
@[simp] theorem report_tasks (s : State) (l d : Nat) : (s.report l d).tasks = s.tasks := by
  have h := congrArg State.tasks (told_report s l d); exact h
@[simp] theorem report_hive (s : State) (l d : Nat) : (s.report l d).hive = s.hive := by
  have h := congrArg State.hive (told_report s l d); exact h
@[simp] theorem report_trm (s : State) (l d : Nat) : (s.report l d).trm = s.trm := by
  have h := congrArg State.trm (told_report s l d); exact h
@[simp] theorem report_mod (s : State) (l d : Nat) : (s.report l d).mod = s.mod := by
  have h := congrArg State.mod (told_report s l d); exact h
@[simp] theorem report_hst (s : State) (l d : Nat) : (s.report l d).hst = s.hst := by
  have h := congrArg State.hst (told_report s l d); exact h
@[simp] theorem report_eth (s : State) (l d : Nat) : (s.report l d).eth = s.eth := by
  have h := congrArg State.eth (told_report s l d); exact h
@[simp] theorem report_free (s : State) (l d : Nat) : (s.report l d).free = s.free := by
  have h := congrArg State.free (told_report s l d); exact h

end Sys2Proof.Machine
end

