-- ==== Sys2Proof/WellFormed.lean ====
section
/-!
DEFINITION. Well-formed commands: what the types of the operands do not say. The meanings do not rest
on it; a command that is not well formed is one that nothing outside the device can send.
-/

namespace Sys2Proof

/-- Port T has four data lanes, the arm ports eight (R187). -/
def laneOfPort (p : Port) (lane : DLane) : Bool := decide (p.val < 6) || decide (lane.val < 4)

/-- An offset in the register part of BAR0, or in the window behind it (Table 1.7, R403). -/
def inRegisters (off : BitVec 24) : Bool := decide (off.toNat < 0x800000)
def inWindow (off : BitVec 24) : Bool := decide (0x800000 ≤ off.toNat)

/-- Lanes of a PCIe link as trained; 0 while there is no link (Table 17.8). -/
def linkWidth (w : Fin 9) : Bool := w == 0 || w == 1 || w == 2 || w == 4 || w == 8

/-- Whether a command is well formed. -/
def Instr.wf : Instr → Bool
  | .registerWrite _ off _ _ => inRegisters off
  | .unmappedAccess _ _ => true
  | .readLo _ off => inRegisters off
  | .hostWindowWrite off be _ => inWindow off && be != 0
  | .phaseDone p l _ => laneOfPort p l
  | .phaseTimeout p l => laneOfPort p l
  | .alignDone p l _ => laneOfPort p l
  | .alignTimeout p l => laneOfPort p l
  | .handshakeDone p l => laneOfPort p l
  | .handshakeTimeout p l => laneOfPort p l
  | .frameDone p l => laneOfPort p l
  | .frameTimeout p l => laneOfPort p l
  | .laneLol p l _ _ => laneOfPort p l
  | .eyeScanStart p l => laneOfPort p l
  | .eyeScanDone p l _ => laneOfPort p l
  | .eyeStarved p l => laneOfPort p l
  | .beatRx lines _ _ => lines.length == 4
  | .qpush n _ _ _ pop =>
    match pop with
    | none => true
    | some x => x.1 != n && decide (n.val < 8) && decide (x.1.val < 8)
  | .bmeClear cfg => linkWidth cfg.width
  | _ => true

end Sys2Proof
end

