-- ==== Sys2Proof/Tests/Slice0.lean ====
section
/-!
SUPPORT. Small tests: a command that is not well formed for each check, results worked out by hand from
the manual's tables and examples, and for each statement with hypotheses a state that meets those of its
clauses.
-/

namespace Sys2Proof.Machine.Test

open Sys2Proof Sys2Proof.Machine

set_option Elab.async false

/-- Whether a command answers a next state that has a property. -/
def after (c : Instr) (s : State) (p : State → Bool) : Bool :=
  match exec c s with
  | .next t => p t
  | _ => false

def all (l : List Bool) : Bool := l.all id

/-- The device after reset, its memory banks tested. -/
def z : State := State.reset.setReg R.GCR_BANK 0
/-- The device in an operating state. -/
def inState (k : Nat) (s : State) : State := s.setFld F.CRK_STATE_STATE k
/-- Core n runs at an address, with registers set. -/
def core (n : Nat) (g : Tab Word) (s : State) : State :=
  s.setCore n { run := true, pc := if n = 8 then 0 else 0x1000, g := g }
/-- A sweep is to be admitted at 1 µs; or one is under way, and its commit point due at 1.7 µs. -/
def grid (s : State) : State :=
  { s.setFlag F.CRK_CTL_RUN true with crk := { s.crk with nextAdm := some 1000000, nextNum := 7 } }
def sweep (k : Stage) (s : State) : State :=
  { grid s with crk := { (grid s).crk with stage := k, commitDue := some 1700000 } }
/-- A lane of a port in a phase. -/
def lane (p l ph : Nat) (s : State) : State := s.setFld (laneFld p l F.DFY_LSTAT_PHASE) ph

/-! ### Well-formed commands -/

theorem test_wf_lane_of_port_t : Instr.wf (.phaseDone 6 4 0) = false ∧ Instr.wf (.phaseDone 6 3 0) = true ∧
    Instr.wf (.laneLol 6 7 .tracker []) = false ∧ Instr.wf (.laneLol 5 7 .tracker []) = true := by decide
theorem test_wf_beat_lanes : Instr.wf (.beatRx [[], [], []] 0 []) = false ∧
    Instr.wf (.beatRx [[], [], [], []] 0 []) = true := by decide
theorem test_wf_register_offset : Instr.wf (.registerWrite .host 0x800000 0xF 0) = false ∧
    Instr.wf (.registerWrite .host 0x7FFFFC 0xF 0) = true ∧ Instr.wf (.readLo .host 0x800000) = false := by
  decide
theorem test_wf_window : Instr.wf (.hostWindowWrite 0x7FFFF8 0xFF 0) = false ∧
    Instr.wf (.hostWindowWrite 0x800000 0 0) = false ∧
    Instr.wf (.hostWindowWrite 0x800000 1 0) = true := by decide
theorem test_wf_pop_with_push : Instr.wf (.qpush 1 0 0 0 (some (1, 0, 0, 0))) = false ∧
    Instr.wf (.qpush 1 0 0 0 (some (2, 0, 0, 0))) = true := by decide
theorem test_wf_link_width :
    Instr.wf (.bmeClear { bme := false, msixEn := false, fnMask := false, mrrs := 0, speed := 1, width := 3 })
      = false := by decide

/-! ### Results worked out by hand -/

/-- R257: the words of its example, 0x0461_FFF8 ADDK g3, g1, -8 and the pair that places 0x0614_4A02. -/
theorem test_decode_constants : all [scalarDecode 0 0x0461FFF8 == some (.addk 0 3 1 0xFFF8),
    scalarDecode 0 0x14804A02 == some (.ork 0 4 0 0x4A02),
    scalarDecode 0 0x20840614 == some (.hik 0 4 4 0x0614)] = true := by decide +kernel

/-- R181, R182: a 1 after 24 zeros on the line is a stuff bit; a 25th zero is a violation, and is removed. -/
theorem test_stuff_after_24 :
    (stuff 0 false (List.replicate 25 false)).1 = List.replicate 24 false ++ [true, false] ∧
    (destuff 0 false (List.replicate 24 false ++ [true, false])).1 = List.replicate 25 false ∧
    ((destuff 0 false (List.replicate 25 false)).1, (destuff 0 false (List.replicate 25 false)).2.1.length) =
      (List.replicate 24 false, 1) := by decide +kernel

/-- R409: a doorbell sets IPEND bit 4 of the cores it names. -/
theorem test_doorbell : after (.doorbell 0x81) z (fun t =>
    (t.core 0).ipend == 0x10 && (t.core 7).ipend == 0x10 && (t.core 1).ipend == 0) = true := by
  decide +kernel

/-- R258: ADDS saturates at 0x7FFFFFFF and sets QSAT (bit 3). -/
theorem test_adds_saturates : after (.adds 0 3 1 2) (core 0 [(1, 0x7FFFFFFF), (2, 1)] z) (fun t =>
    t.g 0 3 == 0x7FFFFFFF && (t.core 0).status == 8) = true := by decide +kernel

/-- R257: ADDK extends its constant by its sign; HIK places it unchanged. -/
theorem test_addk_negative : after (.addk 0 3 1 0xFFFF) (core 0 [(1, 5)] z) (fun t => t.g 0 3 == 4)
    = true := by decide +kernel
theorem test_hik : after (.hik 0 3 1 0x8001) (core 0 [(1, 0x1234)] z) (fun t => t.g 0 3 == 0x80011234)
    = true := by decide +kernel

/-- Table 10.8: a division by 0 answers the limit of its sign and sets QSAT. -/
theorem test_divs_by_zero : after (.divs 0 3 1 2) (core 0 [(1, 0xFFFFFFFE)] z) (fun t =>
    t.g 0 3 == 0x80000000 && (t.core 0).status == 8) = true := by decide +kernel

/-- R257: a branch counts instructions of 4 bytes. -/
theorem test_branch_back : after (.brEq 0 1 1 0xFFFE) (core 0 [] z) (fun t => (t.core 0).pc == 0xFF8)
    = true := by decide +kernel

/-- R407: a function-level reset leaves the window origin at its reset value, and a PWM period as set. -/
theorem test_flr : after .flr ((z.setFld F.HST_WIN_BASE 5).setFld F.PWM_PER_PER 9) (fun t =>
    t.fld F.HST_WIN_BASE == 0 && t.fld F.PWM_PER_PER == 9) = true := by decide +kernel

/-- Table 1.7: the window with BASE 0x100 at offset 0x800008 is SRAM 0x1000008, byte 0 lowest. -/
theorem test_window : after (.hostWindowWrite 0x800008 0x03 0x2211) (z.setFld F.HST_WIN_BASE 0x100)
    (fun t => t.rd8 0x1000008 == 0x11 && t.rd8 0x1000009 == 0x22 && t.rd8 0x100000A == 0) = true := by
  decide +kernel

/-- R418: BOOT_T 0x14 and OFF 0x50 are 2 ms and 800 ns. -/
theorem test_bootstrap_defaults : z.bootT = 2000000000 ∧ z.bootOff = 800000 := by decide +kernel

/-- R359: a RESET is rejected with the parameter block all zeros (RESET by command not allowed). -/
theorem test_mts_reset_rejected : after .mtsReset z (fun t => t.flag (lineStat 0)) = true := by
  decide +kernel

/-! ### States that meet the hypotheses of the statements -/

def c0 : State := core 0 [(1, 0x2000), (2, 16), (3, 0x3000)] z
def bs : State := core 8 [(1, 0x7FFC)] z
def en (i : Nat) (s : State) : State := s.setFlagBit F.MDG_CTL_EN i true
def entry : SbEntry := { addr := 0x2000, mask := 0xF, data := 7 }

theorem witness_StepRunsTheFrontCommand : { z with pending := [.trip] }.pending = [.trip] ∧ z.pending = [] := by
  decide
theorem witness_CommandsLeaveTheQueue : after .trip z (fun t => t.pending == []) = true ∧
    z.flag F.MTS_STAT_FTM = false ∧ (z.setFlag F.MTS_STAT_FTM true).flag F.MTS_STAT_FTM = true := by
  decide +kernel
theorem witness_StepKeepsCanonicalForm : z.canon = true ∧
    (match step { z with pending := [.trip] } with | .next t => t.canon | _ => false) = true := by
  decide +kernel
/-- Application core and safety core, shifts at their limit. -/
theorem witness_ScalarResults : all [c0.atInstr 0, bs.atInstr 8, decide ((31 : Fin 64).val ≤ 31)] = true := by
  decide +kernel
theorem witness_SaturatingInstructionsRetire : all
    [c0.atInstr 0, (core 0 [(1, 0x80000000), (2, 0xFFFFFFFF)] z).atInstr 0, c0.g 0 4 == 0, c0.g 0 2 != 0]
      = true := by decide +kernel
theorem witness_JumpsAndBranches : all
    [c0.atInstr 0, (c0.g 0 1 + (4 : BitVec 16).signExtend 32).toNat % 4 == 0] = true := by decide +kernel
theorem witness_LoadsReadMemory :
    all [c0.atInstr 0, memReadable 0x1FFFFFF, memReadable 0x81FFFFC, c0.clean 0x2000 4, (c0.core 0).sb.isEmpty,
      bs.atInstr 8, decide ((bs.g 8 1).toNat < 0x8000)] = true ∧
    ((c0.setCore 0 { c0.core 0 with sb := [entry] }).core 0).sb.filter (SbEntry.overlaps 0x2000 4) = [entry] ∧
    entry.holds 0x2000 4 = true ∧ entry.holds 0x2003 1 = true ∧
    -- R265's example: ST.H, then LD.W of the same word
    (let s := c0.setCore 0 { c0.core 0 with sb := [{ entry with mask := 3 }] };
      all [s.bankOpen 0x2000, !(s.flag F.CCD_INJ_ARM), !(({ entry with mask := 3 } : SbEntry).holds 0x2000 4),
        after (.ldW 0 31 1 0) s (fun t => t.g 0 31 == 7 && (t.core 0).sb.isEmpty &&
          t.fld (F.BTL_STALL_FWD_STALL.up 0) == 1)]) = true ∧
    (let s := c0.setCore 0 { c0.core 0 with g := [(1, 0x10000000)], sb := [entry] };
      all [s.atInstr 0, regOff 0x10000000 == some 0, !(readActs 0),
        after (.ldW 0 31 1 0) s (fun t => t.g 0 31 == 0x06144A02 && (t.core 0).sb.isEmpty),
        after (.ldW 0 31 1 0) (c0.setCore 0 { c0.core 0 with g := [(1, 0x101C0000)] })
          (fun t => t.g 0 31 == 0 && t.flag (lineStat 2))]) = true := by
  decide +kernel
theorem witness_StoresAndTheirDrain :
    all [c0.atInstr 0, decide ((c0.core 0).sb.length < 8),
    memWritable 0x2000, memWritable 0x4FFFFFF, (regOff regSpace).isSome] = true ∧
    (let s := c0.setCore 0 { c0.core 0 with sb := [entry] };
      all [(s.core 0).sb == [entry], !(s.poisoned 0x2000 8), s.noneWaits,
        after (.storeDrain 0) { s with ecc := { s.ecc with ue := [0x400] } } (fun t =>
          t.rd8 0x2000 == 0 && t.flag (lineStat 0x1B) && t.poisoned 0x2000 8)]) = true ∧
    (let f : SbEntry := { entry with addr := 0x2004, data := 9 };
      let s := c0.setCore 0 { c0.core 0 with sb := [entry, f] };
      all [entry.merges f, s.noneWaits, after (.storeDrain 0) { s with ecc := { s.ecc with ue := [0x400] } } (fun t =>
        t.rd8 0x2000 == 7 && t.rd8 0x2004 == 9 && !(t.poisoned 0x2000 8) && (t.core 0).sb.isEmpty)]) = true ∧
    after (.storeDrain 0) (c0.setCore 0 { c0.core 0 with sb := [{ entry with addr := 0x10000010, data := 0x55 }] })
      (fun t => t.reg R.GCR_SCRUB == 0x55) = true ∧
    (let s := c0.setCore 0 { c0.core 0 with resv := some 0x2000 };
      all [s.atInstr 0, s.drained 0, memWritable 0x2000, (s.core 0).resv == some (s.g 0 1).toNat]) = true ∧
    (c0.core 0).resv ≠ some 0x2000 := by decide +kernel
theorem witness_SystemInstructions : all [c0.atInstr 0, c0.drained 0, bs.atInstr 8, bs.drained 8,
    ((c0.core 0).sysReg 0 8).isSome, (c0.core 0).intrs == 0,
    ((c0.setCore 0 { c0.core 0 with ipend := 1, ien := 1 }).core 0).intrs != 0] = true := by decide +kernel
theorem witness_ExceptionsEnterTheHandler : all [c0.atInstr 0, !((c0.core 0).st stXACT), bs.atInstr 8,
    !((bs.core 8).st stXACT), !(memReadable 0x2000000), !(memWritable 0x5000000),
    !((z.setFlag F.BTL_CTL_DBG_EN false).flag F.BTL_CTL_DBG_EN),
    (let s := { c0 with ecc := { c0.ecc with ue := [0x400] } };
      s.atInstr 0 && s.drained 0 && s.poisoned 0x2000 1 &&
        after (.ldBu 0 31 1 0) s (fun t => (t.core 0).cause == 5 && (t.core 0).eval == 0x2000)),
    (let s := { c0 with ecc := { c0.ecc with ue := [0x200] } };
      (s.core 0).ready && s.poisoned 0x1000 4 && s.noneWaits &&
        after (.add 0 3 1 2) s (fun t => (t.core 0).cause == 4 && (t.core 0).epc == 0x1000)),
    (let s := c0.setCore 0 { c0.core 0 with status := 4 };
      s.atInstr 0 && (s.core 0).st stXACT && after (.trap 0 63) s (fun t => (t.core 0).nested))] = true := by
  decide +kernel
theorem witness_SweepInstructions : all [c0.atInstr 0, c0.drained 0, !(c0.running), (grid c0).running,
    (grid c0).atInstr 0, !((c0.core 0).st stXACT)] = true := by decide +kernel
theorem witness_VectorAluByLane : all [z.vecOpen .hornet, z.vecOpen (.hook 5)] = true := by decide +kernel
theorem witness_VectorLoadsAndStores : all [z.vecOpen .hornet, decide (0 < spaceSize .st),
    decide (0 < spaceSize .out), !(z.hrn.work.reads (hornetCtx z) (.vld 0 .inp 0)),
    !(z.hrn.work.reads (hornetCtx z) (.vperm 0 0 0))] = true := by decide +kernel
theorem witness_AccumulatorInstructions : all [z.vecOpen .hornet,
    !(z.hrn.work.reads (hornetCtx z) (.vlda 0 126))] = true := by decide +kernel
theorem witness_GainNotchAndSelect : all [z.vecOpen .hornet,
    !(z.hrn.work.reads (hornetCtx z) (.vgs 13 0)), !(z.hrn.work.reads (hornetCtx z) (.vnotch 0 0 3 31)),
    !(z.hrn.work.reads (hornetCtx z) (.vmsel 0 1 2 7)), !(gainEn (hornetCtx z) 0),
    !(notchEn (hornetCtx z) 0 0)] = true := by decide +kernel
theorem witness_VectorControlFlow : z.vecOpen (.hook 0) = true ∧ spaceSize .st ≤ 255 := by decide +kernel
theorem witness_BlockInstructionElement : all [c0.atInstr 0, c0.drained 0, (c0.g 0 2).toNat % 8 == 0,
    rangeReadable 0x2000 8, rangeWritable 0x3000 8, c0.clean 0x2000 8, c0.g 0 4 == 0] = true := by
  decide +kernel
theorem witness_CoreControlAndInterrupts : all [!(z.flagBit F.BTL_CTL_RUN 0),
    (z.setFlagBit F.BTL_CTL_RUN 0 true).flagBit F.BTL_CTL_RUN 0, z.noneWaits, z.drained 0,
    !((z.core 0).halted), ((c0.setCore 0 { c0.core 0 with halted := true }).core 0).halted,
    (let s := c0.setCore 0 { c0.core 0 with haltReq := true };
      (s.core 0).haltReq && (s.core 0).run && s.noneWaits), c0.atInstr 0,
    (c0.setFlag F.BTL_CTL_DBG_EN true).flag F.BTL_CTL_DBG_EN,
    ((z.setCore 0 { z.core 0 with halted := true }).core 0).halted,
    !((z.setCore 0 { z.core 0 with sb := [entry] }).drained 0)] = true ∧
    (let c : CoreSt := { run := true, status := 1, ipend := 0x90, ien := 0x80 };
      all [c.live, c.st stIE, !(c.st stXACT), c.wait.interruptible, (c.ipend &&& c.ien).getLsbD 7,
        (List.range 7).all (fun j => !((c.ipend &&& c.ien).getLsbD j))]) = true ∧
    (let c : CoreSt := { run := true, ipend := 1, ien := 1, wait := .wfi };
      all [c.live, c.wait == .wfi, (c.ipend &&& c.ien).getLsbD 0]) = true := by decide +kernel
theorem witness_CyclicTasks : all [!(z.taskBusy 0), z.modeAct 0 == mdStop, z.noneWaits, !(z.running),
    z.crk.commitDue.isNone, (grid z).running,
    (let s := (z.setMode 3 mdRun).setFlag (taskFld 3 F.BTL_TSTAT_BUSY) true;
      s.taskBusy 3 && s.modeAct 3 == mdRun && decide (s.outWords 3 = 0) && !(s.poisoned (s.image 3) 4) && decide (s.consec 3 < s.wdgN 3)),
    (let s := (z.setMode 3 mdRun).setFld (taskFld 3 F.BTL_TSTAT_CONSEC) 15;
      decide (s.wdgN 3 ≤ s.consec 3) && s.drained (s.taskCore 3))] = true := by decide +kernel

/-! #### Hive -/

/-- Core 0 with a queue number in g1 and a buffer in g2; queue 5 is enabled with a limit of 2. -/
def hv : State :=
  (core 0 [(1, 5), (2, 0x2000)] z).setDesc 5
    { head := 0, tail := 0, depth := 0, en := true, hold := false, atomic := false, nen := false, ntask := 0
      nflag := 0, limit := 1 }
/-- The same with one item in slot 9. -/
def hv1 : State :=
  let s := hv.setDesc 5 { hv.desc 5 with head := 9, tail := 9, depth := 1 }
  { s with hive := { s.hive with used := [9], queued := 1 } }

theorem witness_QueuePushAppends : all [hv.atInstr 0, hv.drained 0, hv.canon, rangeReadable 0x2000 8,
    hv.clean 0x2000 8, hv.clean (descAddr 5) 16, (hv.desc 5).en,
    decide ((hv.desc 5).depth < 2 ^ (hv.desc 5).limit), !(hv.hive.init)] = true := by decide +kernel
theorem witness_QueuePopsAndFailures : all [hv1.atInstr 0, hv1.drained 0, hv1.canon,
    rangeWritable 0x2000 8, !(hv1.poisoned 0x2000 16), hv1.clean (slotAddr 9) 8, (hv1.desc 5).en,
    decide (0 < (hv1.desc 5).depth), !((hv1.desc 6).en), decide ((hv.desc 5).depth = 0),
    decide (1048576 ≤ ((core 0 [(1, 0x100000)] z).g 0 1).toNat)] = true := by decide +kernel

/-- An ATOMIC queue with items of flows 1, 1 and 2 in slots 9, 10 and 11, oldest first; flow 1 is locked. -/
def hvA : State :=
  let s := hv.setDesc 5 { hv.desc 5 with head := 9, tail := 11, depth := 3, atomic := true, limit := 2 }
  let s := ((s.store (slotAddr 9) [1]).store (slotAddr 10) [1]).store (slotAddr 11) [2]
  { s with hive := { s.hive with
      used := [7, 9, 10, 11], queued := 3, link := [(9, 10), (10, 11)], svc := [(4, ⟨7, some 1⟩)] } }
def pop1 : Instr := .qpop 0 3 1 2
/-- R303: the oldest item of an unlocked flow leaves; the two before it stay. With its flow locked too no
item is left to take, and a release unlocks. (Which tag a HOLD queue's pop takes is a free value.) -/
theorem witness_QueuePops_atomic : all [hvA.atInstr 0, hvA.drained 0, hvA.canon, hvA.flowLocked 1, !(hvA.flowLocked 2),
    hvA.items 3 9 == [9, 10, 11], (hvA.items 3 9).all (fun x => !(hvA.itemBad x)),
    after pop1 hvA (fun t => t.items 2 (t.desc 5).head == [9, 10] && (t.desc 5).tail == 10 &&
      t.rd8 0x2000 == 2),
    after pop1 { hvA with hive := { hvA.hive with svc := [(4, ⟨7, some 1⟩), (5, ⟨8, some 2⟩)] } } (fun t => t.g 0 3 == 5),
    after (.tagRelease 4) hvA (fun t => !(t.flowLocked 1)),
    after pop1 { hvA with hive := { hvA.hive with linkBad := [11] } } (fun t => t.g 0 3 == 8 && (t.desc 5).depth == 2 &&
      t.flag F.HIV_STAT_POISON),
    after pop1 { hvA with ecc := { hvA.ecc with ue := [descAddr 5 / 8] } } (fun t => t.g 0 3 == 8 &&
      t.fld F.HIV_STRAND_ITEMS == 3)] = true := by decide +kernel
/-- Table 12.3: a push by B0 and a pop by B1 in one round, at DEPTH 0 and above. (Which slot a push takes is a free
value.) -/
theorem witness_QueueRounds :
    (let two := fun (s : State) => s.setCore 1 { run := true, pc := 0x1000, g := [(1, 5), (2, 0x3000)] };
      let c := Instr.qpush 0 3 1 2 (some (1, 3, 1, 2));
      all [(two hv).atInstr 1, (two hv).drained 1, rangeWritable 0x3000 8, (two hv).g 1 1 == (two hv).g 0 1,
        !((two hv).flag F.CCD_INJ_ARM), (two hv).bankOpen (slotAddr 0), (two hv).hive.linkBad.isEmpty,
        !((two hv).flowLocked 0), hvA.items 3 9 == [9, 10, 11], (hvA.items 3 9).getLast? == some (hvA.desc 5).tail,
        (hvA.items 3 9).all (fun x => hvA.hive.used.contains x && !(hvA.itemBad x)), hvA.flowLocked 1,
        !(hvA.flowLocked 2), decide (hvA.hive.used.length < poolSize), (exec c (two hv)) matches .next _]) = true := by decide +kernel
theorem witness_QueueConfiguration : all [z.clean (descAddr 0) 16,
    decide (z.wrErr 0 = 0), decide ((z.setFld F.HIV_QCFG_LIMIT_EXP 22).wrErr 0 ≠ 0)] = true := by
  decide +kernel
theorem witness_HiveMaintenance : all [z.hive.flush.isNone, z.clean (descAddr 0) 16,
    z.hive.svc.isEmpty] = true ∧
    ({ z.hive with svc := [(4, ⟨9, none⟩)] }).svc.find? (fun x => x.1 == 4) = some (4, ⟨9, none⟩) ∧
    ({ z.hive with flush := some 5, init := true }).flush = some 5 := by decide +kernel
theorem witness_HiveTasksFlagsAndOffers : all [c0.atInstr 0, c0.drained 0,
    ((z.setHcore 0 { cur := some 4, offer := some 4095 }).hcore 0).cur == some 4,
    decide ((z.htask 0).group < 64), (z.hcore 0).offer.isNone,
    (let s := (z.setHtask 9 { en := true, flags := 1, mask := 1, aff := 1, group := 63 }).setReg (R.HIV_GW + 60) 0x1000000;
      s.offerable 9 0 && decide (0 < s.weight 63) && after (.offer 0) s (fun t => (t.hcore 0).offer == some 9)),
    (let s := z.setCore 0 { run := true, wait := .evwait 3 1 };
      (s.core 0).live && (s.core 0).wait == .evwait 3 1)] = true := by decide +kernel

/-! #### Registers and the sweep -/

theorem witness_RegisterAccessAndScrub : all [z.noneWaits,
    (match regDesc R.CRK_ARMS with | some d => d.rwl != 0 && (z.reg R.CRK_ARMS ^^^ 1) &&& d.rwl != 0 | none => false),
    (z.setFlag F.MTS_STAT_LOCK true).locked, !(z.locked), !(z.pwmDue 11), (regDesc R.HIV_QSEL).isSome,
    !(actsOnWrite R.HIV_QSEL), !(actsOnWrite R.BTL_STAT), !(actsOnWrite 0x20), (regDesc 0x20).isNone, actsOnWrite 0x1A01BC,
    (let s := (((z.setFlag F.GCR_SCRUB_EN true).setFlag F.CCD_INJ_ARM true).setFld F.CCD_INJ_TARGET 1);
      after (.scrubLine false) s (fun t => t.ecc.ce == [0] && t.flag F.CCD_INJ_DONE && !(t.flag F.CCD_INJ_ARM))),
    (regDesc R.GCR_SCRUB).isSome, readPairLo R.FFY_NOW_LO, decide (0x1C0000 < 0x800000),
    !((z.setFlag F.GCR_SCRUB_EN false).flag F.GCR_SCRUB_EN),
    (z.setFlag F.GCR_SCRUB_EN true).flag F.GCR_SCRUB_EN, !(z.flag F.GCR_SCRUB_STARVED),
    decide (z.ecc.scrubAt < 2097152)] = true := by decide +kernel
theorem witness_SweepGridAndRunControl : all [z.quiet, !(z.running), z.crk.commitDue.isNone,
    decide (0 < z.period), !((inState stDeblocked z).quiet), (grid z).running, (grid z).quiet,
    !((grid z).crk.gridDue), !((inState stReady (grid z)).quiet), z.crk.heldPeriod.isNone, z.crk.heldEpoch.isNone,
    z.crk.heldWin.isNone, decide (1000 ≤ 20000 / 2 * 2), decide (20001 / 2 * 2 ≤ 20000),
    (let s := (grid z).setTask 15 { (z.task 15) with pend := some mdHold };
      let s := s.setMode 15 mdRun;
      (s.task 15).pend == some mdHold && s.modeAct 15 == mdRun &&
        after (.sweepsStop .host) s (fun t => !(t.running) && t.modeAct 15 == mdHold))] = true := by decide +kernel
/-- Core 0 waits for an admission point, core 7 for the commit of sweep 5. -/
def waits : State :=
  ((grid z).setCore 0 { run := true, wait := .sweep 3 true }).setCore 7 { run := true, wait := .commit 4 5 }
set_option maxRecDepth 8000 in
theorem witness_AdmissionPointStartsTheSweep : all [z.crk.nextAdm.isNone,
    (grid z).crk.nextAdm == some 1000000, (grid z).crk.commitDue.isNone, !((grid z).crk.gridDue),
    { (grid z).crk with gridDue := true }.gridDue, decide (0 < z.period), (waits.core 0).live,
    (waits.core 0).wait == .sweep 3 true, (waits.core 7).wait == .commit 4 5, decide (0 ≤ sdiff (7 : Word) 5),
    after .admissionPoint waits (fun t => t.g 0 3 == 7 && (t.core 0).pc == 4 && t.g 7 4 == 5)] = true := by
  decide +kernel
theorem witness_ChainRunsInOrder : all [(sweep .admitted z).crk.stage == .admitted, !(z.hrn.faulted),
    !(z.flag F.HRN_CTL_EXEC_EN), (z.setFlag F.HRN_CTL_EXEC_EN true).flag F.HRN_CTL_EXEC_EN,
    !(z.injected 4), !(z.injected 3), (sweep .hornetDone z).crk.stage == .hornetDone,
    (sweep .swarmDone z).crk.stage == .swarmDone] = true := by decide +kernel
theorem witness_CommitPointEndsTheSweep : all [z.crk.commitDue.isNone,
    (sweep .assembled z).crk.commitDue == some 1700000, (sweep .assembled z).noneWaits,
    (let s := (sweep .assembled z).setCore 7 { run := true, wait := .sweep 31 false };
      (s.core 7).live && after .commitPoint s (fun t => (t.core 7).pc == 4)),
    (List.range 16).all (fun k => z.modeAct k == mdStop && (z.task k).pend.isNone && !(z.task k).done),
    z.opState != stDeblocked,
    (let s := (inState stDeblocked z).setFld F.CRK_LATE_CONSEC 15;
      decide (max 1 (s.fld F.CRK_LATE_LIMIT) ≤ s.fld F.CRK_LATE_CONSEC))] = true := by decide +kernel
/-- A module that may switch: arm 0 enabled and its set complete, Mantis confirmed and permissive. -/
def rig : State :=
  let s := ((z.setFld F.CRK_ARMS_ARM_EN 1).setFld F.CRK_ARMS_TOPO 5).setReg R.MTS_STAT 0
  let s := (s.setFlag F.MTS_STAT_CONFIRMED true).setFlag F.MTS_STAT_BS_OK true
  let s := ((s.setFlag F.HRN_CTL_EXEC_EN true).setFlag F.LCW_CTL_EN true).setFlag F.MOD_COMPAT_OK true
  let s := (s.setImp 0 { s.imp 0 with setOk := true }).setFld F.CRK_VBASE_VBASE 5
  grid { s with mts := { s.mts with demands := [] }, mod := { s.mod with power := .ready } }
/-- A command executes at the admission point, and leads to a state by command. -/
def executes (c : Instr) (st : Nat) (s : State) : Bool :=
  after c s (fun t => t.opState == st && t.fld F.CRK_STATE_CAUSE == 1 && t.crk.pend.isNone)

set_option maxRecDepth 8000 in
theorem witness_StateCommands : all [z.crk.pend.isNone, z.sweepToStart.isNone, (grid z).sweepToStart.isSome,
    ({ z with crk := { z.crk with pend := some 8 } }).crk.pend == some 8,
    executes .precharge stPrecharge rig, executes .readyCmd stReady (inState stPrecharge rig),
    executes .deblock stDeblocked (inState stReady rig), executes .deblockAt stDeblocked (inState stReady rig),
    executes .block stReady (inState stDeblocked rig), executes .stop stBlocked (inState stDeblocked rig),
    executes .reset stBlocked (inState stTripped rig), executes .service stServicing (grid z)] = true ∧
    (let s := { grid z with crk := { (grid z).crk with pend := some 8, dbSeen := true } };
      all [decide (1000 * (s.dbat : Int) ≤ (s.reach 1000000).ffyPs),
        (let s := s.setReg64 R.CRK_DBAT_LO 1001; decide ((s.reach 1000000).ffyPs < 1000 * (s.dbat : Int))),
        decide ((s.reach 1000000).ffyPs ≤ 1000 * ((s.dbat : Int) + s.period)),
        (let s := { s with now := 10 ^ 9 }; decide (1000 * ((s.dbat : Int) + s.period) < s.ffyPs))]) = true ∧
    (let s := { rig with ccd := { rig.ccd with trip := true }, crk := { rig.crk with pend := some 1 } };
      all [s.stateAdmit.opState == stTripped, s.stateAdmit.fld F.CRK_CMD_STAT_ERR == 1,
        !((inState stDeblocked { rig with ccd := { rig.ccd with block := true } }).ccd.trip),
        (s.setFld F.TWN_STAT_ROLE roleStandby).stateAdmit.fld F.CRK_CMD_STAT_ERR == 7]) = true := by
  decide +kernel
set_option maxRecDepth 8000 in
theorem witness_StateChangesOnlyByTransitions : executes .service stServicing (grid z) = true ∧
    (grid z).mod.power ≠ .off ∧ (grid z).opState ≠ stServicing ∧ (grid z).role ∉ [roleStandby, roleArming] := by
  decide +kernel

/-- Task 0 has its image block at 64 KiB with one output, to 0x20000, and one input, from 0x20004, and core 0
waits for a sweep. -/
def cyc (mode : Nat) (f : TaskSt → TaskSt) (s : State) : State :=
  let s := ((s.setFld (taskFld 0 F.BTL_TIMG_ADDR) 64).setMode 0 mode).setTask 0 (f (s.task 0))
  let s := (s.store 0x10000 [1, 0, 1, 0]).store 0x10040 [4, 0, 2, 0]
  (s.store 0x10240 [0, 0, 2, 0]).store 0x102C0 [9]
def due (s : State) : State := sweep .assembled s

theorem witness_CommitMakesVisible :
    (let s := (lane 0 0 phLocked (due z)).setFld F.TWN_STAT_ROLE roleActive;
      all [s.active, s.streams 0 0, s.impMode 0 0 == impNone, s.noneWaits, s.crk.commitDue.isSome,
        ([(laneKey 0 0, 0)].filter (fun x => x.1 / 16 == 0 && x.1 % 16 == 0)) == [(laneKey 0 0, 0)],
        (sweep .swarmDone z).crk.stage != .assembled]) = true ∧
    (let s := due (cyc mdRun (fun x => { x with done := true }) z);
      all [s.crk.commitDue == some 1700000, s.noneWaits, s.modeAct 0 == mdRun, s.outWords 0 == 1, s.inWords 0 == 1,
        s.image 0 == 0x10000, !(s.taskHeld 0), (s.rd32 0x10240).toNat == 0x20000, dstOk 0x20000, s.bankOpen 0x1FFFFFF,
        inProgram (s.image 0) 1024, (s.rd32 0x10040).toNat == 0x20004, s.cycleDue 0 0 == true, s.taskBusy 0 == false,
        s.ecc.ce.isEmpty && s.ecc.ue.isEmpty, decide (s.taskCore 0 < 8),
        { s.setFlag F.CRK_CTL_RUN false with now := 0 }.running == false,
        after .commitPoint (s.setFlag F.CRK_CTL_RUN false) (fun t => t.rd8 0x20000 == 9 && !(t.task 0).done)]) = true := by
  decide +kernel
theorem witness_SwarmSelects :
    (let s := ((sweep .hornetDone z).setFld F.CRK_ARMS_ARM_EN 1).setFld F.SWM_CFG_N_SLOTS 2;
      let s := inState stDeblocked { s with eff := s.regs };
      all [s.crk.stage == .hornetDone, z.crk.stage != .hornetDone, (s.effFld F.CRK_ARMS_ARM_EN).testBit 0,
        !((s.effFld F.CRK_ARMS_ARM_EN).testBit 5), s.entrySweep, decide (20 ≤ s.sep 0), decide (4 * s.sep 0 ≤ s.period),
        !({ s with crk := { s.crk with dbDone := 3 } }).entrySweep, (s.slotsIn 0 0).length == 2,
        s.swm 0 F.SWM_CTL_PRE_HOOK_EN != 1, s.swm 0 F.SWM_CTL_KEY_HOOK_EN != 1,
        ((s.slotsIn 0 0).all (fun x => !(x.perm) || x.unav != 0)),
        (inState stPrecharge s).opState == stPrecharge, (s.slotsIn 0 0).all (fun x => x.prev == codeBlocked),
        after .swarmSelection (inState stReady s) (fun t => (tget (fun _ => {}) (t.arm 0).work.cmds 1).code == codeBlocked)])
      = true ∧
    -- six inserted cells in a window of 4000 ns with SEP 1000 ns: four edges fit
    (let s := (((sweep .hornetDone z).setFld F.SWM_CFG_N_SLOTS 6).setFld F.SWM_EDGE_SEP_NS 1000).setReg R.CRK_PERIOD 4000;
      let s := inState stReady ((List.range 6).foldl (fun s k => s.setCell (cellId 0 k) { s.cell (cellId 0 k) with
        endState := codeInserted }) { s with eff := s.regs });
      let code := fun (t : State) (k : Nat) => (tget (fun _ => {}) (t.arm 0).work.cmds k).code;
      all [!(s.crk.blockIn), (s.slotsIn 0 0).all (fun x => x.prev == codeInserted),
        after .swarmSelection s (fun t => code t 3 == codeBlocked && code t 4 == codeInserted &&
          (t.arm 0).work.deferred == [4, 5]),
        after .swarmSelection (inState stTripped s) (fun t => code t 4 == codeBlocked &&
          (t.arm 0).work.deferred.isEmpty)]) = true := by decide +kernel
theorem witness_ArmRequests : all [!(z.armTestNow 0),
    ((inState stServicing z).setFlagBit F.CRK_STATE_ARM_TEST 0 true).armTestNow 0, !(z.flag (swmFld 0 F.SWM_TEST_GO)), !((z.arm 0).hookBusy),
    (z.setArm 0 { hookBusy := true, refresh := true, refreshSweeps := 1000 }).arm 0 != {},
    !(z.cfActive 0), (z.setFlag (cfFld 0 F.SWM_CF_ACTIVE) true).cfActive 0, z.quiet] = true := by decide +kernel

/-! #### Lanes -/

/-- Lane 0 of arm 0 LOCKED, with a whole receive history. -/
def lk : State := (lane 0 0 phLocked z).setLane 0 0 { rx := { got := 58 } }
/-- The line bits that carry bits to a receiver whose history is all 0. -/
def wire (b : List Bool) : List Bool := (({} : TxSt).send b).line
/-- A reflex word NONE with its RCRC; a gap unit of 128 bits with a UTYPE; a half frame of empty slots. -/
def noWord : List Bool := bitsMsb 32 (rfxFinish 0 false).toNat
def unit (ut : Nat) : List Bool :=
  let b := bitsMsb 8 ut ++ bitsMsb 64 0
  noWord ++ b ++ bitsMsb 24 (crc24 b).toNat
def halfFrame : List Bool :=
  let h := noWord ++ List.replicate 96 false
  bitsMsb 64 upSync.toNat ++ h ++ bitsMsb 32 (hcrc (h.drop 32)).toNat ++
    (List.replicate 64 (noWord ++ List.replicate 96 false)).flatten

/-- R219: bits of an IDLE, an eye report and an identity chunk are read as three units that pass. -/
theorem test_units : (lk.lineUnits 0 0 (wire (unit 0 ++ unit 3 ++ unit 5))).map (fun u => (u.ok, u.utype)) =
    [(true, 0), (true, 3), (true, 5)] := by decide +kernel

theorem witness_DelayCalibration : all [!(z.dcal.running), !(z.laneLocked 0 0), lk.laneLocked 0 0,
    (lk.lane 0 0).echoes.isEmpty, decide (125 * 0 ≤ 2000 * lk.period + 10000000),
    decide (2000 * lk.period + 10000000 < 125 * 1000000),
    (let s := lk.setLane 0 0 { echoes := [(127, 255, 0), (0, 0, 5)] };
      (s.lane 0 0).echoes.any (fun e => decide (e.1 = 127 ∧ e.2.1 = 255) && !((s.lane 0 0).waits e)) &&
        ((s.lane 0 0).echoes.find? (fun e => !((s.lane 0 0).waits e)) == some (127, 255, 0))),
    (let s := lk.setLane 0 0 { echoes := [(127, 255, 0)], units := [(0x01, echoPayload 127 255)] };
      (s.lane 0 0).waits (127, 255, 0) && (s.lane 0 0).echoes.any (fun e => decide (e.1 = 127 ∧ e.2.1 = 255))),
    (let s := (((lk.setFlag (laneFld 0 0 F.DFY_CREDIT_ID_OK) true).setFld (laneFld 0 0 F.DFY_CREDIT_AVAIL) 1).setFld
        F.CRK_ARMS_ARM_EN 1).setFld F.SWM_CFG_N_SLOTS 2;
      let s := { s with dcal := { s.dcal with running := true, present := [1], lanes := [laneKey 0 0] } };
      s.calNext 0 0 == some 1 && decide (0 < s.avail 0 0) && (s.lane 0 0).echoSweep.isNone &&
        (s.calCells 0 0).contains 1 && !((s.calCells 0 0).contains 0)),
    !(z.passOver), !(z.requalOver 0 0), z.quiet,
    ({ z with dcal := { z.dcal with running := true } }).passOver,
    !(({ z with dcal := { z.dcal with running := true } }).dcal.told),
    (lk.setFlag (laneFld 0 0 F.DFY_LSTAT_REQUAL) true).requalOver 0 0] = true := by decide +kernel
theorem witness_ReflexWords : all [((lk.lineUnits 0 0 (wire (unit 0 ++ noWord))).filter (fun u => u.cut)).length == 1,
    (wholeUnits (lk.lineUnits 0 0 (wire (unit 0 ++ noWord)))).length == 1, !(z.streams 0 0), (lk.nextCarrier (lk.lane 0 0)).isSome, (lk.lane 0 0).early.isEmpty, lk.streams 0 0, lk.carries 0 0, !(z.carries 0 0),
    (lk.setFld F.TWN_STAT_ROLE roleActive).active, decide (z.nSlots 0 ≤ 0)] = true := by decide +kernel
theorem witness_UpstreamFrames : all [lk.streams 0 0, lk.impMode 0 0 == impNone,
    lk.laneLocked 0 0, (lk.syncAt 0 0 true 0 []).isNone,
    (let b := lk.lineBits 0 0 (wire halfFrame);
      lk.syncAt 0 0 true (lk.lineSkip 0 0) b == some 0 && (b.drop (frameBits true)).isEmpty &&
        hdrCrc (frameHead b) == frameCrc b && (frameWords (frameHead b) []).all (fun w =>
          rfxCrc w == BitVec.ofNat 8 w.toNat && decide (w.toNat < 2 ^ 28))),
    (let b := lk.lineBits 0 0 (wire (List.replicate 64 true ++ halfFrame.drop 64));
      (lk.syncAt 0 0 true (lk.lineSkip 0 0) b).isNone && b.length == frameBits true && lk.lineSkip 0 0 == 0)]
      = true := by decide +kernel
theorem witness_IdentityRecordAndEyeScans : all [!(z.streams 0 0), lk.streams 0 0,
    (let s := lk.setFld (laneFld 0 0 F.DFY_CREDIT_AVAIL) 1; decide (0 < s.avail 0 0)),
    ((lk.lane 0 0).askedAt 7).isNone, !((lk.lane 0 0).hasChunk 7), hasLane 6 3, !(hasLane 6 4),
    recAsymOk (List.replicate 48 0), !(recValid (List.replicate 48 0)), (lk.lane 0 0).scan.isNone, (lk.lineUnits 0 0 (wire (unit 3))).length == 1, (lk.lineUnits 0 0 []).isEmpty,
    ((lk.setLane 0 0 { scan := some 5 }).lane 0 0).scan == some 5] = true := by decide +kernel
theorem witness_PortCommands : all [z.mayTrain 0, z.mayTrain 6, !((inState stReady z).mayTrain 5),
    z.impAllowed 0, !((inState stReady z).impAllowed 0)] = true := by decide +kernel
theorem witness_LaneBringUp : all [z.phase 0 ckLane == phOff, (lane 0 8 phClock z).phase 0 ckLane == phClock,
    (lane 0 0 phPhase z).phase 0 0 == phPhase, hasLane 0 0, decide (z.eyeMin ≤ (bestRun (-1)).2),
    (lane 0 0 phAlign z).phase 0 0 == phAlign, (lane 0 0 phHandshake z).phase 0 0 == phHandshake,
    ((lane 0 0 phFrame z).setLane 0 0 { goodFrames := 3, frameSweeps := 32 }).phase 0 0 == phFrame,
    lk.laneLocked 0 0, (lk.setLane 0 0 { bad := 2 }).lolHolds 0 0 .frames,
    (lane 0 8 phLocked z).laneLocked 0 ckLane, decide (0 < z.attempts),
    decide ((z.setFld (laneFld 0 0 F.DFY_LSTAT_ATTEMPT) 15).attempts ≤ 15)] = true := by decide +kernel

/-! #### Signals, time, records -/

theorem witness_HornetRegisters : all [!((inState stReady z).quiet), z.quiet, z.crk.commitDue.isNone, z.hrn.poison.isEmpty,
    z.bankCheck 1 == some (1, 0), z.crk.commitDue.isNone, !(z.running), (grid z).running,
    !(z.flag F.HRN_BANK_LOAD), (z.setFlag F.HRN_BANK_LOAD true).flag F.HRN_BANK_LOAD,
    z.hrn.bank == .none, ({ z.hrn with bank := .running, par := .running }).bank == .running,
    !(z.flag F.HRN_PAR_SWAP), z.hrn.par == .none] = true := by decide +kernel
theorem witness_ConvertersAndLatches : all [!(z.flagBit F.MDG_CTL_EN 0), (en 15 z).flagBit F.MDG_CTL_EN 15,
    !(z.cflag 0 F.MDG_CSTAT_BUSY), (z.setFlag (convUp 15 F.MDG_CSTAT_BUSY) true).cflag 15 F.MDG_CSTAT_BUSY,
    ((z.setConv 0 { converting := true }).conv 0).converting, !(z.flag F.FFY_STAT_GATED), z.quiet,
    (z.nextVisit 0).isNone, !(z.swapMay 0),
    ((z.setConv 0 { swapDue := some 5, swapping := some 6 }).conv 0).swapDue == some 5,
    after (.mdgSwtrig 15) (en 15 (z.setFlag (convUp 15 F.MDG_CSTAT_BUSY) true))
      (fun t => t.flagBit F.MDG_SWTRIG_TRIG 15),
    (z.setFlagBit F.MDG_SWTRIG_TRIG 15 true).flagBit F.MDG_SWTRIG_TRIG 15,
    z.fld (convUp 15 F.MDG_CFG_TRIG_SRC) == 0] = true := by decide +kernel
theorem witness_FireflyTimeAndEvents : all [z.quiet, !(z.running), !((inState stReady z).quiet),
    z.regS R.FFY_RATE_ACT == z.regS R.FFY_RATE, (z.setReg R.FFY_RATE 55).regS R.FFY_RATE == 55,
    !(z.ffy.relock), z.opState == stBlocked, z.ffy.stamps.isEmpty, !(z.tracked false),
    (z.setFld F.FFY_PTP_PTP_EN 1).tracked true, decide (z.peerCount true < z.fld F.FFY_PTP_GROUP_N), z.ffy.peers.isEmpty, !(z.flag (domValid false)),
    (z.setFlag (domValid true) true).flag (domValid true),
    !(z.flag (evUp 15 F.FFY_EV_CTL_EN)),
    (z.setFlag (evUp 15 F.FFY_EV_CTL_EN) true).flag (evUp 15 F.FFY_EV_CTL_EN),
    decide (sdiff 0 (1 : Word) < 0), decide (0 ≤ sdiff 1 (1 : Word)), decide (0 ≤ z.evDiff 0),
    !(z.flag (evUp 7 F.FFY_CAP_CTL_VALID)), z.fld (evUp 7 F.FFY_CAP_CTL_SRC) == 0, !(z.flag F.FFY_STAT_GATED), !(z.ffy.pps),
    (z.setFlag F.FFY_CTL_PPS_EN true).flag F.FFY_CTL_PPS_EN,
    after (.relock .host) (lane 6 3 phPhase z) (fun t => (t.lane 6 3).tx.line.isEmpty && !(t.pwmLevel 11)),
    (let s := lane 6 3 phClock { z with ffy := { z.ffy with relock := true, lockAt := some 5 } };
      s.phase 6 3 == phClock && !((s.lane 6 3).sending) &&
        after .outputRelease s (fun t => (t.lane 6 3).tx.line.length == 8))] = true := by decide +kernel
theorem witness_MothCommands : all [z.mth.writing.isNone, z.mphase == phIdle, z.crk.nextAdm.isNone,
    (grid z).crk.nextAdm.isSome, (grid z).crk.commitDue.isNone,
    (z.setFld F.MTH_STAT_PHASE phArmed).mphase == phArmed,
    decide ((({ slot := 4095, sweep := 1, flags := 0, n := 1, last := true } : RecSt)).slot < 4096)] = true := by
  decide +kernel
theorem witness_TermiteJobs : all [!(z.trmBusy 0), !(z.poisoned 0 64), z.jobOk (z.jobAt 0),
    !((z.wr8 19 1).jobOk ((z.wr8 19 1).jobAt 0)), ((z.wr8 0 0x20).jobAt 0).src == 2,
    (z.wr8 0 0x20).jobOk ((z.wr8 0 0x20).jobAt 0),
    (z.setFlag (trmFld 1 F.TRM_STAT_BUSY) true).trmBusy 1,
    ((z.setFlag (trmFld 1 F.TRM_STAT_BUSY) true).setFlag (trmFld 1 F.TRM_STAT_SUSP) true).trmSusp 1,
    !(z.mothTaken 0), ({ z.job 0 with closed := true }).output.isEmpty] = true := by decide +kernel

/-! #### Twin, safety, module, host -/

def twin : State := z.setFlag F.TWN_CTL_EN true
/-- Lane T.D0 LOCKED with a whole receive history, on a module with the twin link enabled. -/
def tb : State := (lane 6 0 phLocked twin).setLane portT 0 { rx := { got := 58 } }
def beatWord : BitVec 128 := 0x0000000701000000000000000000000001#128

theorem witness_TwinBeats : all [z.twn.nextBeat.isNone, twin.twinOn, !(beatWord.getLsbD 81),
    beatHead (tb.lanesBeat [wire (beatBits beatWord none)]) == some beatWord, (beatHead (tb.lanesBeat [])).isNone,
    beatParse (beatBits (beatWord ||| (1 <<< 81)) (some [List.replicate 16 7])) ==
      some (beatWord ||| (1 <<< 81), some [List.replicate 16 7]),
    ({ twin with twn := { twin.twn with nextBeat := some 5, misses := 3 } }).twn.nextBeat == some 5,
    (lane 6 0 phLocked twin).laneLocked portT 0, (dataLanes portT).contains 0,
    (twin.setFld F.TWN_STAT_ROLE roleStandby).role == roleStandby] = true := by decide +kernel
theorem witness_TwinRoles : all [twin.twinOn, !(z.twinOn), (twin.setFld F.TWN_STAT_ROLE roleActive).active,
    twin.twn.ho == .none, !(z.twn.actOut), z.crk.nextAdm.isNone, (grid twin).crk.nextAdm.isSome,
    twin.twn.freeFrom.isNone, !(twin.flag F.TWN_CTL_RELEASE)] = true := by decide +kernel
theorem witness_MantisDemands : all [z.quiet, !((inState stReady z).quiet), z.mod.power != .off,
    ((mtsSettle z).demandSince 0).isNone, !(z.locked), !(z.paramOk), !(z.pulsesRun), !(z.mts.tpaLow),
    (z.setReg (R.MTS_PARAM + 4) 0x0064000A).pulsesRun, decide (z.mts.tpbAt.getD 0 < 5 + 1)] = true ∧
    (let s := { z with mts := { z.mts with tpaLow := true, heldA := true, tpaAt := some 5, pins := 1, atStart := 3 } };
      let s := s.setReg (R.MTS_PARAM + 16) 0x10001;
      all [s.mts.tpaLow, s.mts.heldA, s.fTest 0, s.mts.pins.getLsbD 0, s.mts.atStart.getLsbD 1, !(s.mts.pins.getLsbD 1),
        after (.testPulseEnd false) s (fun t => t.flagBit F.MTS_FUNC_TPFAIL 0 && t.mts.heldA && !(t.mts.tpaLow))]) = true ∧
    (let s := { z with now := 10 ^ 8, mts := { z.mts with heldA := true, tpaEnd := 0, pins := 5 } };
      all [s.mts.heldA, !(s.mts.tpaLow), decide (s.mts.tpaEnd + 10 ^ 8 ≤ s.now), !((mtsSettle s).mts.heldA),
        (mtsSettle s).mts.evald == 5]) = true ∧
    (let s := { z with mts := { z.mts with heldA := true, tpaEnd := 0, pins := 1 } };
      let s := s.setReg (R.MTS_PARAM + 16) 0x10001;
      all [z.holdEnd.isNone, s.holdEnd == some (10 ^ 8), s.fTest 0, (z.mtsAt (demandDue 0)).isNone,
        (s.mtsAt (demandDue 0)).isSome, (s.mtsAt (discDue 0)) == some ({ mtsSettle { s with now := 10 ^ 8 } with
          now := 10 ^ 8 })]) = true := by decide +kernel
theorem witness_StepKeepsTestPulses : z.pulsesAgree = true ∧
    ({ z with mts := { z.mts with tpbLow := true, heldB := true, tpbAt := some 5 } }).pulsesAgree = true ∧
    (match step { z with pending := [.testPulseEnd true] } with | .next t => t.pulsesAgree | _ => false) = true := by
  decide +kernel
theorem witness_MantisReset : all [!((z.param 2).testBit 0), !(z.mts.reset),
    ((z.setReg R.MTS_PARAM 0x30000).param 2).testBit 0, z.fType 0 != 3,
    ({ z.mts with reset := true, resetA := 2, resetB := 2 }).resetA == 2,
    (let s := { z.setReg (R.MTS_PARAM + 16) 3 with mts := { z.mts with heldA := true, tpaEnd := 7 } };
      ((s.setFunc 0 { riseA := some 1, riseB := some 1 }).mtsAt (resetDue 0)).isSome)] = true := by decide +kernel
theorem witness_SafetyCoreAndMessages : all [z.quiet, !((inState stReady z).quiet), !(z.flag F.MTS_BS_RUN),
    (z.setFlag F.MTS_BS_RUN true).flag F.MTS_BS_RUN, (bs.core 8).run, !((bs.core 8).nested), !(z.mts.bsSup),
    z.mts.bsWrites == 0, ({ z.mts with bsWrites := 2 }).bsWrites == 2, !(z.smRuns), !(z.flag F.MTS_STAT_FTM)] = true := by decide +kernel
theorem witness_CicadaRegisters : all [bitsOf (7 : Word) 0 3 == 7, bitsOf (9 : Word) 0 3 != 7,
    (9 : Word).getLsbD 3, !(z.flag F.CCD_INJ_ARM),
    injAllowed z 1 0, !(injAllowed (inState stReady z) 3 0),
    !(z.flag (lineStat 0x3F)), !(z.active), !(z.flag F.CCD_SUM_ERR), !(z.flag (lineMask 0x3F)),
    z.fld (evUp 7 F.FFY_CAP_CTL_SRC) != 3, (z.setFld (evUp 7 F.FFY_CAP_CTL_SRC) 3).fld (evUp 7 F.FFY_CAP_CTL_SRC) == 3,
    (let s := ((z.setFld F.TWN_STAT_ROLE roleActive).setFld (lineClass 0x38) 4).setFld F.FFY_CAP_CTL_SRC 4;
      s.active && s.fld (lineClass 0x38) == 4 && !(s.mts.demands.contains 0x10) &&
        after (.ccdSwrep 0) s (fun t => t.flag F.CCD_SUM_ERR && t.mts.demands.contains 0x10 &&
          t.flag F.FFY_CAP_CTL_VALID))]
      = true := by decide +kernel
theorem witness_ModulePower : all [z.mod.power == .starting, z.mod.presentLow, z.mod.vinLow.isNone,
    (let s := { z with mod := { z.mod with power := .off, vinFrom := some 0 } };
      s.mod.power == .off && s.mod.presentLow && s.mod.vinFrom == some 0),
    (let s := { z with mod := { z.mod with presentLow := false, presentAt := 4, vinLow := some 3 } };
      s.mod.power != .off && !(s.mod.presentLow) && s.failDue == some 10000004),
    (let s := { z with mod := { z.mod with vinLow := some 3 } }; s.failDue == some 20000003), z.rebootOk,
    !((inState stDeblocked (z.setFld F.TWN_STAT_ROLE roleActive)).rebootOk),
    decide ((9999 : Fin 65536).val < 10000), decide (10000 ≤ (10799 : Fin 65536).val),
    after (.bakLow 94 (2500, true)) z (fun t => t.now == 0 && t.fld F.MOD_BAK_CHG == 94 && !(t.flag F.MOD_STAT_BAK_WARN)),
    after (.bakLow 94 (2500, false)) z (fun t => t.flag F.MOD_STAT_BAK_WARN)] = true := by decide +kernel
/-- A header that is valid, of a payload that is not; both slots of the boot flash hold it. -/
def header : List Byte :=
  let h := leBytes 4 hdrMagic ++ leBytes 8 1 ++ leBytes 4 1 ++ leBytes 4 0x40 ++ leBytes 2 0xFFFF ++
    List.replicate 38 0
  h ++ leBytes 4 (crc32 h).toNat
def slots (l : List Nat) : State :=
  let put := fun (b : Nat) => (List.range 64).map (fun i => (b + i, header.getD i 0))
  { z with flash := put (slotBase 0) ++ put (slotBase 1), mod := { z.mod with slots := l } }

theorem witness_ModuleBoot_slots : all [hdrValid header, z.hwFits header, decide (z.tries 1 ≠ 3),
    ((slots [0, 1]).payload 0 ((slots [0, 1]).flashBytes 0 64)).isNone,
    after .imageLoadDone (slots [0, 1]) (fun t => t.mod.slots == [1] && t.tries 1 == 1 && t.fld F.MOD_COMPAT_CODE == 2),
    !(hdrValid (z.flashBytes (slotBase 1) 64))] = true := by decide +kernel
theorem witness_ModuleBoot : all [!((z.setFld F.GCR_BANK_BANK_BUSY 0).flagBit F.GCR_BANK_BANK_BUSY 0),
    (z.setFld F.GCR_BANK_BANK_BUSY 255).flagBit F.GCR_BANK_BANK_BUSY 7, z.bankOpen 0x40, (z.core 0).sb.isEmpty, z.mod.power == .starting, z.fld F.GCR_BANK_BANK_BUSY == 0,
    State.reset.fld F.GCR_BANK_BANK_BUSY != 0, { z.mod with power := .ready }.power == .ready,
    (z.setFlag F.MOD_STAT_BOOTED true).flag F.MOD_STAT_BOOTED,
    z.mod.slots.isEmpty, z.payload 0 (List.replicate 64 0) == some [],
    (z.payload 0 (leBytes 4 0 ++ leBytes 4 0 ++ List.replicate 24 0 ++ [1] ++ List.replicate 31 0)).isNone, !(z.flag F.MOD_STAT_BOOTED),
    z.mod.confirmFrom.isNone, !(z.flag F.MOD_FCMD_BUSY), decide (z.flashErr true = 0),
    decide ((z.setFld F.MOD_FSEC_SECTOR 511).flashErr true = 2), z.mod.fcmd.isNone] = true := by decide +kernel
theorem witness_HostWindowAndDma : all [decide (memEnd ≤ (z.setFld F.HST_WIN_BASE 0x820).winAddr 0x800000),
    decide (z.winAddr 0xFFFFFF / 8 * 8 < memEnd), memWritable (z.winAddr 0x800000),
    !(memWritable ((z.setFld F.HST_WIN_BASE 0x200).winAddr 0x800000)), !(z.poisoned 0 8),
    ({ z with ecc := { z.ecc with ue := [0] } }).poisoned 0 8,
    !(z.flag (dmaFld 7 F.HST_DSTAT_BUSY)), !((z.dma 0).busy), inProgram 0x1FFFFE0 32, z.bankOpen 0x1FFFFE0,
    ((z.setDma 0 { desc := 32, busy := true }).dma 0).busy] = true := by decide +kernel
theorem witness_HostBusAndInterrupts : all [(z.hst.tags.find? (fun e => e.1 == 1023)).isNone,
    !(z.flag F.HST_STAT_BME), (z.setFlag F.HST_STAT_BME true).flag F.HST_STAT_BME, !(z.pba 63),
    (z.vector 63).pba 63, decide (32 ≤ (32 : Fin 64).val)] = true ∧
    ({ z.hst with tags := [(3, { ch := 0, addr := 0, len := 8, at_ := 0 })] }).tags.find? (fun e => e.1 == 3) =
      some (3, { ch := 0, addr := 0, len := 8, at_ := 0 }) := by decide +kernel
/-- A port that is enabled with its link up; a broadcast frame of 1,514 bytes. -/
theorem witness_EthernetPorts :
    (let s := (z.setFlag (ethFld true F.ETH_CTL_EN) true).setFlag (ethFld true F.ETH_CTL_LINK) true;
     let l : List Byte := List.replicate 60 0xFF;
      all [s.flag (ethFld true F.ETH_CTL_EN), s.flag (ethFld true F.ETH_CTL_LINK), decide (l.length ≤ rxMax l),
        s.rxDest true l == .ring, s.bankOpen 0x1FFFFFF, s.ringHead true false == s.ringTail true false, (s.goTx true).isNone,
        !(z.flag (ethFld false F.ETH_CTL_LINK))]) = true := by decide +kernel
theorem witness_PwmOutputs : all [!((z.pwmCh 0).running), (z.pwmCh 0).startAt.isNone, !(z.pwmFrozen),
    ((z.setPwmCh 11 { running := true, duty := 1, per := 2, boot := some 5 }).pwmCh 11).running,
    ((z.setPwmCh 11 { startAt := some 2500 }).pwmCh 11).startAt == some 2500,
    (z.setFlag (pwmUp 11 F.PWM_CFG_BOOT_EN) true).flag (pwmUp 11 F.PWM_CFG_BOOT_EN),
    (let s := (z.setFld (pwmUp 11 F.PWM_DUTY_DUTY) 4000).setPwmCh 11 { running := true, duty := 4000, per := 4000, activeFrom := some 0 };
      (s.pwmCh 11).activeFrom == some 0 && (s.pwmCh 11).boot.isNone && s.staysActive 11 s.bootT &&
        (z.setPwmCh 11 { running := true, duty := 1, per := 2, activeFrom := some 0 }).staysActive 11 z.bootT == false),
    !(z.flag F.PWM_FLT_FLT), (z.setFlag F.PWM_FLT_PIN true).flag F.PWM_FLT_PIN, z.noneWaits, decide ((z.pwmCh 0).base ≤ (z.pwmCh 0).per),
    !((z.setFlag F.PWM_FLT_PIN false).flag F.PWM_FLT_PIN), !(z.pwm.fltLow),
    (let s := { (z.setFlag F.PWM_FLT_PIN false).setFld F.PWM_FLT_FLT_EN 0x800 with pwm := { z.pwm with fltLow := true } };
      after (.registerWrite .host (BitVec.ofNat 24 R.PWM_FLT) 0xF 0x1800) s (fun t => (t.pwmCh 11).hizFlt)),
    after (.registerWrite .host (BitVec.ofNat 24 R.PWM_FLT) 0xF 0x1000) ((z.setFlag F.PWM_FLT_PIN true).setPwmCh 11 { hizFlt := true })
      (fun t => (t.pwmCh 11).fltOver && !((t.pwmCh 0).fltOver))] = true := by decide +kernel
theorem witness_MemoryFrame : all [storesNothing .trip, after .trip z (fun _ => true), storesNothing (.resume 7),
    (lk.lineUnits 0 0 (wire (unit 3))).all (fun u => u.utype != utEchoRep),
    storesNothing (.sweepsStop .host), after (.sweepsStop .host) (grid z) (fun t => !(t.running)), z.noneWaits,
    (List.range 16).all (fun k => (z.task k).pend.isNone && !((z.task k).safeDue))] = true := by decide +kernel

end Sys2Proof.Machine.Test
end

section
/-!
PROOF. The saturating functions and the divisions (R258, Tables 10.6 and 10.8): their results as clamped
integers, and what an instruction that ends with a result and its saturation leaves of the core.
-/

namespace Sys2Proof.Machine

/-! ### Results -/

/-- Saturation to a signed range of `k + 1` bits is the clamp between its ends. -/
theorem satInt_eq_clamp (k : Nat) (x : Int) :
    satInt (k + 1) x = max (-2 ^ k) (min (2 ^ k - 1) x) := by
  have hp : (0 : Int) < 2 ^ k := Int.pow_pos (by decide)
  simp only [satInt, sMax, sMin, Nat.add_sub_cancel]
  split
  · omega
  · split <;> omega

theorem outOf_eq_decide (k : Nat) (x : Int) :
    outOf (k + 1) x = decide (x < -2 ^ k ∨ 2 ^ k - 1 < x) := by
  simp only [outOf, sMax, sMin, Nat.add_sub_cancel, gt_iff_lt, ← Bool.decide_or]
  exact decide_eq_decide.2 Or.comm

theorem satFlag_eq_clamp (x : Int) :
    satFlag x = (BitVec.ofInt 32 (max (-2 ^ 31) (min (2 ^ 31 - 1) x)),
      decide (x < -2 ^ 31 ∨ 2 ^ 31 - 1 < x)) := by
  simp only [satFlag, sat32, satInt_eq_clamp 31, outOf_eq_decide 31]

theorem opSat_eq_clamp (a : Word) (k : Nat) :
    opSat a k = (BitVec.ofInt 32 (max (-2 ^ k) (min (2 ^ k - 1) a.toInt)),
      decide (a.toInt < -2 ^ k ∨ 2 ^ k - 1 < a.toInt)) := by
  simp only [opSat, satInt_eq_clamp, outOf_eq_decide]

theorem divOvf_iff (a b : Word) : divOvf a b = true ↔ a = 0x80000000 ∧ b = 0xFFFFFFFF := by
  simp [divOvf]

section Division

variable {a b : Word}

theorem opDivs_regular (hb : b ≠ 0) (ho : ¬(a = 0x80000000 ∧ b = 0xFFFFFFFF)) :
    opDivs a b = (BitVec.ofInt 32 (Int.tdiv a.toInt b.toInt), false) := by
  rw [opDivs, if_neg hb, if_neg (mt (divOvf_iff a b).1 ho)]

theorem opMods_regular (hb : b ≠ 0) (ho : ¬(a = 0x80000000 ∧ b = 0xFFFFFFFF)) :
    opMods a b = (BitVec.ofInt 32 (Int.tmod a.toInt b.toInt), false) := by
  rw [opMods, if_neg hb, if_neg (mt (divOvf_iff a b).1 ho)]

theorem opDivu_regular (hb : b ≠ 0) :
    opDivu a b = (BitVec.ofInt 32 (a.toNat / b.toNat : Nat), false) := by
  rw [opDivu, if_neg hb, BitVec.ofInt_natCast]

theorem opModu_regular (hb : b ≠ 0) :
    opModu a b = (BitVec.ofInt 32 (a.toNat % b.toNat : Nat), false) := by
  rw [opModu, if_neg hb, BitVec.ofInt_natCast]

theorem opDivs_overflow (ho : a = 0x80000000 ∧ b = 0xFFFFFFFF) :
    opDivs a b = (BitVec.ofInt 32 (2 ^ 31 - 1), true) := by
  obtain ⟨rfl, rfl⟩ := ho
  decide

theorem opMods_overflow (ho : a = 0x80000000 ∧ b = 0xFFFFFFFF) :
    opMods a b = (BitVec.ofInt 32 0, true) := by
  obtain ⟨rfl, rfl⟩ := ho
  decide

theorem opDivs_zero (hb : b = 0) :
    opDivs a b = (BitVec.ofInt 32 (if a.toInt < 0 then -2 ^ 31 else 2 ^ 31 - 1), true) := by
  rw [opDivs, if_pos hb]
  split <;> rfl

theorem opDivu_zero (hb : b = 0) : opDivu a b = (BitVec.ofInt 32 (2 ^ 32 - 1), true) := by
  rw [opDivu, if_pos hb]
  rfl

theorem opMods_zero (hb : b = 0) : opMods a b = (BitVec.ofInt 32 a.toInt, false) := by
  rw [opMods, if_pos hb, BitVec.ofInt_toInt]

theorem opModu_zero (hb : b = 0) : opModu a b = (BitVec.ofInt 32 a.toInt, false) := by
  rw [opModu, if_pos hb, BitVec.ofInt_toInt]

end Division

/-! ### The end of an instruction with a saturation flag -/

/-- Setting QSAT in STATUS leaves the other bits. -/
theorem putBits_qsat (x : Word) : putBits x stQSAT 1 1 = x ||| 8 := by
  refine BitVec.eq_of_getLsbD_eq fun i hi => ?_
  rw [getLsbD_putBits, BitVec.getLsbD_or, show (8 : Word) = BitVec.twoPow 32 3 from rfl,
    BitVec.getLsbD_twoPow]
  by_cases h : i = 3
  · subst h; simp [stQSAT]
  · rw [if_neg (by simp only [stQSAT]; omega)]
    simp [Ne.symm h]

/-- The core after an instruction that ends with a result and its saturation. -/
def CoreSt.endSat (c : CoreSt) (rd : Nat) (r : Word × Bool) : CoreSt :=
  { (c.setG rd r.1).advance with status := if r.2 then c.status ||| 8 else c.status }

theorem core_retireSat (s : State) (n rd : Nat) (r : Word × Bool) :
    (s.retireSat n rd r).core n = (s.core n).endSat rd r := by
  have hs : (((s.core n).setG rd r.1).advance).status = (s.core n).status := setG_status _ _ _
  unfold State.retireSat State.retire CoreSt.endSat
  cases hr : r.2
  · simp only [Bool.false_eq_true, if_false, core_setCore, ← hs]
  · simp only [if_true, core_setCore, CoreSt.setSt, putBits_qsat, hs]

theorem onlyCore_retireSat (s : State) (n rd : Nat) (r : Word × Bool) :
    onlyCore n s (s.retireSat n rd r) := by
  unfold State.retireSat State.retire
  cases r.2 <;> exact ⟨rfl, fun m hm => by simp [hm]⟩

theorem onlyCore_trans {n : Nat} {s t u : State} (h : onlyCore n s t) (g : onlyCore n t u) :
    onlyCore n s u := by
  obtain ⟨hst, hm⟩ := h
  obtain ⟨htu, gm⟩ := g
  refine ⟨?_, fun m hne => (gm m hne).trans (hm m hne)⟩
  exact (congrArg (fun v : State => { v with cores := s.cores, free := s.free }) htu).trans hst

section EndSat

variable (c : CoreSt) (rd : Nat) (r : Word × Bool)

@[simp] theorem endSat_status :
    (c.endSat rd r).status = if r.2 then c.status ||| 8 else c.status := rfl
@[simp] theorem endSat_pc : (c.endSat rd r).pc = c.pc + 4 := congrArg (· + 4) (setG_pc c rd r.1)
@[simp] theorem endSat_greg (q : Nat) : (c.endSat rd r).greg q = (c.setG rd r.1).greg q := rfl

/-- The end of an instruction leaves the rest of a core that waits for nothing. -/
theorem endSat_rest (hw : c.wait = .none) :
    { c.endSat rd r with g := c.g, pc := c.pc, status := c.status } = c :=
  calc { c.endSat rd r with g := c.g, pc := c.pc, status := c.status }
    _ = { { c.setG rd r.1 with g := c.g } with pc := c.pc, status := c.status, wait := .none } := rfl
    _ = c := by rw [setG_keeps, ← hw]

end EndSat

/-! ### A whole instruction -/

@[simp] theorem setG_startDue (c : CoreSt) (r : Nat) (v : Word) : (c.setG r v).startDue = c.startDue := by
  unfold CoreSt.setG; split <;> rfl
@[simp] theorem setG_halted (c : CoreSt) (r : Nat) (v : Word) : (c.setG r v).halted = c.halted := by
  unfold CoreSt.setG; split <;> rfl

/-- Replacing a running core by one that runs, starts and is halted as it was lets nothing wait. -/
theorem noneWaits_setCore_run {s : State} {n : Nat} {c : CoreSt} (h : s.noneWaits = true) (hr : c.run = true)
    (hs : c.startDue = (s.core n).startDue) (hh : c.halted = (s.core n).halted) :
    (s.setCore n c).noneWaits = true := by
  refine noneWaits_setCore s n c h (Or.inl hr) (fun hlt => ?_) hh
  simp only [State.noneWaits, Bool.and_eq_true, List.all_eq_true, List.mem_range] at h
  rw [hs]
  simpa using (h.1 n hlt).2

theorem noneWaits_retireSat {s : State} {n : Nat} (rd : Nat) (r : Word × Bool) (h : s.noneWaits = true)
    (hr : (s.core n).run = true) : (s.retireSat n rd r).noneWaits = true := by
  have hret : (s.retire n rd r.1).noneWaits = true :=
    noneWaits_setCore_run h ((setG_run _ _ _).trans hr)
      (setG_startDue _ _ _) (setG_halted _ _ _)
  have hrun : ((s.retire n rd r.1).core n).run = true := by
    rw [State.retire, core_setCore]
    exact (setG_run _ _ _).trans hr
  unfold State.retireSat
  split
  · exact noneWaits_setCore_run hret hrun rfl rfl
  · exact hret

/-- `scalar_atInstr` with the core as the fetch has left it, on the left of its equation. -/
theorem scalar_atInstr_core {s : State} {n : Nat} (f : State → State) (h : s.atInstr n = true) :
    ∃ s0, scalar n f s = (f s0).settled ∧ onlyCore n s s0 ∧
      s0.core n = { s.core n with icache := (s0.core n).icache } ∧ s0.noneWaits = true := by
  obtain ⟨s0, hs0, ho, hc, hn⟩ := scalar_atInstr s n f h
  exact ⟨s0, hs0, ho, congrArg (fun c : CoreSt => { c with icache := (s0.core n).icache }) hc, hn⟩

/-- An instruction that ends with a result and its saturation, of a core that its fetch has left with at
most its instruction cache filled. -/
theorem retiresSat_retireSat {s s0 : State} {n : Nat} (rd : Nat) (r : Word × Bool) (h : s.atInstr n = true)
    (ho : onlyCore n s s0) (hc : s0.core n = { s.core n with icache := (s0.core n).icache })
    (hn : s0.noneWaits = true) :
    retiresSat n rd r.1 r.2 s (s0.retireSat n rd r).settled := by
  obtain ⟨-, hrun, hwait, -⟩ := atInstr_run s n h
  have hrun0 : (s0.core n).run = true := by rw [hc]; exact hrun
  have hwait0 : (s0.core n).wait = .none := by rw [hc]; exact hwait
  have hgreg (q : Nat) : (s0.core n).greg q = s.g n q := by rw [hc]; rfl
  rw [settled_noneWaits _ (noneWaits_retireSat rd r hn hrun0)]
  refine ⟨onlyCore_trans ho (onlyCore_retireSat s0 n rd r), ?_, ?_, ?_, ?_, fun q hq => ?_⟩
  · have hrest := endSat_rest (s0.core n) rd r hwait0
    rw [coreKept, core_retireSat]
    generalize (s0.core n).endSat rd r = c at hrest
    calc { c with g := (s.core n).g, pc := (s.core n).pc, status := (s.core n).status
                  icache := (s.core n).icache }
      _ = { s0.core n with g := (s.core n).g, pc := (s.core n).pc, status := (s.core n).status
                           icache := (s.core n).icache } := by rw [← hrest]
      _ = s.core n := by rw [hc]
  · rw [core_retireSat, endSat_status, hc]
  · rw [core_retireSat, endSat_pc, hc]
  · rw [State.g, core_retireSat, endSat_greg, greg_setG]
  · rw [State.g, core_retireSat, endSat_greg, greg_setG_ne _ _ _ _ hq, hgreg]

/-- The same for an instruction whose effect on a state depends only on the registers it reads. -/
theorem retiresSat_scalar {s : State} {n : Nat} (rd : Nat) (r : Word × Bool) (f : State → State)
    (h : s.atInstr n = true)
    (hf : ∀ s0 : State, (∀ q, s0.g n q = s.g n q) → f s0 = s0.retireSat n rd r) :
    retiresSat n rd r.1 r.2 s (scalar n f s) := by
  obtain ⟨s0, hs0, ho, hc, hn⟩ := scalar_atInstr_core f h
  rw [hs0, hf s0 (fun q => by rw [State.g, hc]; rfl)]
  exact retiresSat_retireSat rd r h ho hc hn

section Runs

variable {n : AnyCore} {rd rs1 rs2 : GReg} {sh : Fin 64} {s : State} {i : Instr} {v : Int} {sat : Bool}

/-- The instruction has a next state, which ends it with `v` in rd and its saturation flag `sat`. -/
def runsSat (n : AnyCore) (rd : GReg) (i : Instr) (v : Int) (sat : Bool) (s : State) : Prop :=
  ∃ t, exec i s = .next t ∧ retiresSat n rd (BitVec.ofInt 32 v) sat s t

theorem runsSat_satOp {f : Word → Word → Word × Bool} (h : s.atInstr n = true)
    (hi : exec i s = .next (satOp n rd rs1 rs2 f s))
    (hv : f (s.g n rs1) (s.g n rs2) = (BitVec.ofInt 32 v, sat)) : runsSat n rd i v sat s := by
  refine ⟨_, hi, retiresSat_scalar rd (BitVec.ofInt 32 v, sat) _ h fun s0 hg => ?_⟩
  rw [hg, hg, hv]

theorem runsSat_mulq (h : s.atInstr n = true) (hsh : sh.val ≤ 62)
    (hv : opMulq (s.g n rs1) (s.g n rs2) sh = (BitVec.ofInt 32 v, sat)) :
    runsSat n rd (.mulq n rd rs1 rs2 sh) v sat s := by
  refine ⟨_, rfl, retiresSat_scalar rd (BitVec.ofInt 32 v, sat) _ h fun s0 hg => ?_⟩
  rw [mulq, if_neg (by omega), hg, hg, hv]

theorem runsSat_sat (h : s.atInstr n = true) (hsh : sh.val ≤ 30)
    (hv : opSat (s.g n rs1) sh = (BitVec.ofInt 32 v, sat)) :
    runsSat n rd (.sat n rd rs1 sh) v sat s := by
  refine ⟨_, rfl, retiresSat_scalar rd (BitVec.ofInt 32 v, sat) _ h fun s0 hg => ?_⟩
  rw [satInstr, if_neg (by omega), hg, hv]

end Runs

/-! ### MTS of STATUS -/

theorem mts_status (s : State) (n rs1 : Nat) :
    mts n rs1 0 s = (s.setCore n { s.core n with status := s.g n rs1 &&& 0xF }).pass n := rfl

theorem qsat_mts_status (s : State) (n rs1 : Nat) :
    ((mts n rs1 0 s).core n).st stQSAT = (s.g n rs1).getLsbD stQSAT := by
  have hst : ((mts n rs1 0 s).core n).status = s.g n rs1 &&& 0xF := by
    rw [mts_status, State.pass, core_setCore, core_setCore]
    rfl
  have hbit : (0xF : Word).getLsbD stQSAT = true := rfl
  rw [CoreSt.st, hst, BitVec.getLsbD_and, hbit, Bool.and_true]

theorem noneWaits_mts_status {s : State} {n : Nat} (rs1 : Nat) (h : s.noneWaits = true)
    (hr : (s.core n).run = true) : (mts n rs1 0 s).noneWaits = true := by
  rw [mts_status]
  exact noneWaits_setCore_run (noneWaits_setCore_run h hr rfl rfl) (by rw [core_setCore]; exact hr) rfl rfl

/-- MTS of STATUS, as a whole instruction, writes QSAT from its bit of the register. -/
theorem qsat_scalar_mts {s : State} {n : Nat} (rs1 : Nat) (h : s.atInstr n = true) :
    ((scalar n (mts n rs1 0) s).core n).st stQSAT = (s.g n rs1).getLsbD stQSAT := by
  obtain ⟨-, hrun, -, -⟩ := atInstr_run s n h
  obtain ⟨s0, hs0, -, hc, hn⟩ := scalar_atInstr_core (mts n rs1 0) h
  have hrun0 : (s0.core n).run = true := by rw [hc]; exact hrun
  have hg : s0.g n rs1 = s.g n rs1 := by rw [State.g, hc]; rfl
  rw [hs0, settled_noneWaits _ (noneWaits_mts_status rs1 hn hrun0), qsat_mts_status, hg]

/-- Settles O6: each function's result is the clamp of its exact value (or a case of Table 10.8), and each
instruction ends in the same way with its result and its flag. -/
theorem saturatingInstructionsRetire : Obligations.SaturatingInstructionsRetire := by
  unfold Obligations.SaturatingInstructionsRetire
  intro n rd rs1 rs2 sh s h
  exact ⟨runsSat_satOp h rfl (satFlag_eq_clamp _), runsSat_satOp h rfl (satFlag_eq_clamp _),
    runsSat_satOp (rs1 := rs1) (rs2 := 0) h rfl (satFlag_eq_clamp _),
    fun hsh => runsSat_mulq h hsh (satFlag_eq_clamp _), fun hsh => runsSat_sat h hsh (opSat_eq_clamp _ _),
    fun hb ho => ⟨runsSat_satOp h rfl (opDivs_regular hb ho), runsSat_satOp h rfl (opMods_regular hb ho)⟩,
    fun hb => ⟨runsSat_satOp h rfl (opDivu_regular hb), runsSat_satOp h rfl (opModu_regular hb)⟩,
    fun ho => ⟨runsSat_satOp h rfl (opDivs_overflow ho), runsSat_satOp h rfl (opMods_overflow ho)⟩,
    fun hb => ⟨runsSat_satOp h rfl (opDivs_zero hb), runsSat_satOp h rfl (opDivu_zero hb),
      runsSat_satOp h rfl (opMods_zero hb), runsSat_satOp h rfl (opModu_zero hb)⟩,
    fun _ => ⟨_, rfl, qsat_scalar_mts rs1 h⟩⟩

end Sys2Proof.Machine
end

section
/-!
PROOF. The pool and the descriptors of Hive (R299 to R301): the slot a push takes is free, and a descriptor
written reads back.
-/

namespace Sys2Proof.Machine

/-! ### A slot from the pool -/

theorem pairwise_of_rising : ∀ l : List Nat, rising l = true → l.Pairwise (· < ·)
  | [], _ => List.Pairwise.nil
  | [_], _ => List.pairwise_singleton _ _
  | a :: b :: r, h => by
    simp only [rising, Bool.and_eq_true, decide_eq_true_eq] at h
    obtain ⟨hab, hr⟩ := h
    have hp := pairwise_of_rising (b :: r) hr
    refine List.pairwise_cons.2 ⟨fun x hx => ?_, hp⟩
    rcases List.mem_cons.1 hx with rfl | hx
    · exact hab
    · exact Nat.lt_trans hab (List.rel_of_pairwise_cons hp hx)

theorem nthFree_cons (u : Nat) (l : List Nat) (k : Nat) :
    nthFree (u :: l) k = nthFree l (if u ≤ k then k + 1 else k) := rfl

/-- Below every key of the list the numbers are all free. -/
theorem nthFree_of_lt {l : List Nat} {k : Nat} (h : ∀ u ∈ l, k < u) : nthFree l k = k := by
  induction l with
  | nil => rfl
  | cons u l ih =>
    rw [nthFree_cons, if_neg (by have := h u (by simp); omega)]
    exact ih fun v hv => h v (by simp [hv])

/-- The number taken is free, and no key lets it move on by more than one. -/
theorem nthFree_free {l : List Nat} (hl : l.Pairwise (· < ·)) (k : Nat) :
    nthFree l k ∉ l ∧ k ≤ nthFree l k ∧ nthFree l k ≤ k + l.length := by
  induction l generalizing k with
  | nil => exact ⟨List.not_mem_nil, Nat.le_refl k, Nat.le_refl k⟩
  | cons u l ih =>
    obtain ⟨hu, hl⟩ := List.pairwise_cons.1 hl
    rw [nthFree_cons, List.length_cons, List.mem_cons]
    by_cases hk : u ≤ k
    · obtain ⟨hfree, hlo, hhi⟩ := ih hl (k + 1)
      rw [if_pos hk]
      exact ⟨fun h => h.elim (by omega) hfree, by omega, by omega⟩
    · have habove : ∀ v ∈ l, k < v := fun v hv => by have := hu v hv; omega
      rw [if_neg hk, nthFree_of_lt habove]
      exact ⟨fun h => h.elim (by omega) fun h => by have := habove k h; omega, by omega, by omega⟩

/-- The slot that a push takes from the pool (R301, log 16). -/
def State.poolSlot (s : State) : Nat :=
  nthFree s.hive.used (Config.freeSlot s.free % (poolSize - s.hive.used.length))

theorem poolSlot_free {s : State} (hr : rising s.hive.used = true) (hroom : s.hive.used.length < poolSize) :
    s.poolSlot < poolSize ∧ s.poolSlot ∉ s.hive.used := by
  have hk := Nat.mod_lt (Config.freeSlot s.free) (Nat.sub_pos_of_lt hroom)
  obtain ⟨hfree, -, hhi⟩ := nthFree_free (pairwise_of_rising _ hr)
    (Config.freeSlot s.free % (poolSize - s.hive.used.length))
  exact ⟨by unfold State.poolSlot; omega, hfree⟩

/-! ### A queue's descriptor in memory (Table 12.1) -/

theorem leNat_leBytes (n x : Nat) : leNat (leBytes n x) = x % 256 ^ n := by
  induction n generalizing x with
  | zero => simp [leBytes, leNat, Nat.mod_one]
  | succ n ih =>
    have hpow : 256 ^ (n + 1) = 256 * 256 ^ n := Nat.pow_succ'
    rw [leBytes, leNat, ih, BitVec.toNat_ofNat, hpow, Nat.mod_mul]

theorem leNat_lt (l : List Byte) : leNat l < 256 ^ l.length := by
  induction l with
  | nil => simp [leNat]
  | cons b r ih =>
    have hb := b.isLt
    rw [leNat, List.length_cons, Nat.pow_succ]
    omega

theorem rdN_lt (s : State) (a n : Nat) : s.rdN a n < 256 ^ n := by
  simpa [State.rdN, State.rdBytes] using leNat_lt (s.rdBytes a n)

/-- The numbers of a descriptor fit their bytes. -/
structure QDesc.Fits (d : QDesc) : Prop where
  head : d.head < 2 ^ 21
  tail : d.tail < 2 ^ 21
  depth : d.depth < 2 ^ 24
  ntask : d.ntask < 4096
  nflag : d.nflag < 64
  limit : d.limit < 256

theorem desc_fits (s : State) (q : Nat) : (s.desc q).Fits where
  head := Nat.mod_lt _ (by decide)
  tail := Nat.mod_lt _ (by decide)
  depth := rdN_lt s _ 3
  ntask := Nat.mod_lt _ (by decide)
  nflag := Nat.mod_lt _ (by decide)
  limit := (s.ld8 (descAddr q + 15)).isLt

/-- A part of bytes that stand in memory, read. -/
theorem rdN_of_ld8 {s : State} {a : Nat} {l : List Byte}
    (h : ∀ k, k < l.length → s.ld8 (a + k) = l.getD k 0)
    (j n : Nat) (hn : j + n ≤ l.length) : s.rdN (a + j) n = leNat ((l.drop j).take n) := by
  refine congrArg leNat (List.ext_getElem (by simp [State.rdBytes]; omega) fun k hk _ => ?_)
  have hk : k < n := by simpa [State.rdBytes] using hk
  simp only [State.rdBytes, List.getElem_map, List.getElem_range, List.getElem_take, List.getElem_drop]
  rw [Nat.add_assoc, h (j + k) (by omega), List.getD_eq_getElem?_getD, List.getElem?_eq_getElem (by omega),
    Option.getD_some]

/-- The flags byte of a descriptor. -/
def QDesc.flagsByte (d : QDesc) : Byte :=
  BitVec.ofNat 8 (b2n d.en + 2 * b2n d.hold + 4 * b2n d.atomic + 8 * b2n d.nen)

theorem testBit_flagsByte (d : QDesc) :
    d.flagsByte.toNat.testBit 0 = d.en ∧ d.flagsByte.toNat.testBit 1 = d.hold ∧
      d.flagsByte.toNat.testBit 2 = d.atomic ∧ d.flagsByte.toNat.testBit 3 = d.nen := by
  unfold QDesc.flagsByte
  generalize d.en = en, d.hold = hold, d.atomic = atomic, d.nen = nen
  revert en hold atomic nen
  decide

/-- A descriptor whose bytes stand in memory reads back. -/
theorem desc_of_bytes {s : State} {q : Nat} {d : QDesc} (hd : d.Fits)
    (h : ∀ k, k < 16 → s.ld8 (descAddr q + k) = d.bytes.getD k 0) : s.desc q = d := by
  obtain ⟨hhead, htail, hdepth, hntask, hnflag, hlimit⟩ := hd
  have hl : d.bytes.length = 16 := rfl
  have hn := fun j n => rdN_of_ld8 (hl ▸ h) j n
  have h0 : s.rdN (descAddr q) 4 = leNat (leBytes 4 d.head) := hn 0 4 (by omega)
  have h4 : s.rdN (descAddr q + 4) 4 = leNat (leBytes 4 d.tail) := hn 4 4 (by omega)
  have h8 : s.rdN (descAddr q + 8) 3 = leNat (leBytes 3 d.depth) := hn 8 3 (by omega)
  have h12 : s.rdN (descAddr q + 12) 2 = leNat (leBytes 2 d.ntask) := hn 12 2 (by omega)
  have h11 : s.ld8 (descAddr q + 11) = d.flagsByte := h 11 (by decide)
  have h14 : s.ld8 (descAddr q + 14) = BitVec.ofNat 8 d.nflag := h 14 (by decide)
  have h15 : s.ld8 (descAddr q + 15) = BitVec.ofNat 8 d.limit := h 15 (by decide)
  obtain ⟨hen, hhold, hatomic, hnen⟩ := testBit_flagsByte d
  simp only [State.desc, h0, h4, h8, h11, h12, h14, h15, leNat_leBytes, hen, hhold, hatomic, hnen]
  simp only [BitVec.toNat_ofNat]
  cases d
  simp only [QDesc.mk.injEq, true_and] at *
  omega

end Sys2Proof.Machine
end

section
/-!
PROOF. What a store into Hive's regions leaves of the rest of the device: the registers but the injection's,
and of the cores all but their reservations.
-/

namespace Sys2Proof.Machine

/-! ### Reads that meet no error -/

theorem correct_clean (s : State) (a n : Nat) (h : s.clean a n = true) : s.correct a n = s := by
  simp only [State.clean, Bool.and_eq_true, Bool.not_eq_true', List.any_eq_false] at h
  obtain ⟨-, hce⟩ := h
  have hc : s.ecc.ce.filter (fun w => decide (w * 8 < a + n) && decide (a < w * 8 + 8)) = [] :=
    List.filter_eq_nil_iff.2 (fun x hx => by simpa using hce x hx)
  simp only [State.correct, hc, List.length_nil, if_true]

theorem poisoned_clean {s : State} {a n : Nat} (h : s.clean a n = true) : s.poisoned a n = false := by
  simp only [State.clean, Bool.and_eq_true, Bool.not_eq_true'] at h
  obtain ⟨hue, -⟩ := h
  exact hue

/-! ### The relation of the states before and after -/

/-- Beyond memory, its ECC and the free values, at most the injection register and the cores' reservations
differ. -/
structure StoreOnly (s t : State) : Prop where
  rest : { t with mem := s.mem, ecc := s.ecc, regs := s.regs, cores := s.cores, free := s.free } = s
  reg : ∀ o, o ≠ R.CCD_INJ → t.reg o = s.reg o
  core : ∀ m, { t.core m with resv := (s.core m).resv } = s.core m

namespace StoreOnly

variable {s t u : State}

theorem refl (s : State) : StoreOnly s s := ⟨rfl, fun _ _ => rfl, fun _ => rfl⟩

theorem of_ecc (s : State) (e : Ecc) : StoreOnly s { s with ecc := e } := ⟨rfl, fun _ _ => rfl, fun _ => rfl⟩

theorem trans (h : StoreOnly s t) (g : StoreOnly t u) : StoreOnly s u where
  rest := (congrArg (fun v : State => { v with
    mem := s.mem, ecc := s.ecc, regs := s.regs, cores := s.cores, free := s.free }) g.rest).trans h.rest
  reg o ho := (g.reg o ho).trans (h.reg o ho)
  core m := (congrArg (fun c : CoreSt => { c with resv := (s.core m).resv }) (g.core m)).trans (h.core m)

theorem ite {c : Prop} [Decidable c] (h : StoreOnly s t) (g : StoreOnly s u) :
    StoreOnly s (if c then t else u) := by split <;> assumption

theorem fld (h : StoreOnly s t) (x : Fld) (hx : x.addr ≠ R.CCD_INJ) : t.fld x = s.fld x := by
  rw [State.fld, h.reg _ hx, State.fld]

theorem bankOpen (h : StoreOnly s t) (a : Nat) : t.bankOpen a = s.bankOpen a := by
  simp only [State.bankOpen, State.flagBit, h.fld F.GCR_BANK_BANK_BUSY (by decide),
    h.fld F.GCR_BANK_BANK_FAIL (by decide)]

theorem hive (h : StoreOnly s t) : t.hive = s.hive := (congrArg State.hive h.rest :)
theorem run (h : StoreOnly s t) (m : Nat) : (t.core m).run = (s.core m).run :=
  (congrArg CoreSt.run (h.core m) :)
theorem sb (h : StoreOnly s t) (m : Nat) : (t.core m).sb = (s.core m).sb :=
  (congrArg CoreSt.sb (h.core m) :)
theorem halted (h : StoreOnly s t) (m : Nat) : (t.core m).halted = (s.core m).halted :=
  (congrArg CoreSt.halted (h.core m) :)
theorem startDue (h : StoreOnly s t) (m : Nat) : (t.core m).startDue = (s.core m).startDue :=
  (congrArg CoreSt.startDue (h.core m) :)
theorem pc (h : StoreOnly s t) (m : Nat) : (t.core m).pc = (s.core m).pc :=
  (congrArg CoreSt.pc (h.core m) :)
theorem g (h : StoreOnly s t) (m r : Nat) : t.g m r = s.g m r :=
  (congrArg (fun c : CoreSt => c.greg r) (h.core m) :)

theorem noneWaits (h : StoreOnly s t) : t.noneWaits = s.noneWaits := by
  have hrun : t.running = s.running := by
    rw [State.running, State.flag, h.fld _ (by decide), State.running, State.flag]
  have hcrk : t.crk = s.crk := (congrArg State.crk h.rest :)
  have htask (j : Nat) : t.task j = s.task j :=
    (congrArg (fun v : State => v.task j) h.rest :)
  have hheld (j : Nat) : t.taskHeld j = s.taskHeld j := by
    have hx : (taskFld j F.BTL_TCFG_CORE).addr ≠ R.CCD_INJ := by
      change 0x171000 + 0x20 * j ≠ 0x160038
      omega
    rw [State.taskHeld, State.taskCore, h.fld _ hx, h.halted, State.taskHeld, State.taskCore]
  simp only [State.noneWaits, h.run, h.sb, h.startDue, hrun, hcrk, htask, hheld]

end StoreOnly

theorem storeOnly_setFlag_inj (s : State) (x : Fld) (b : Bool) (hx : x.addr = R.CCD_INJ) :
    StoreOnly s (s.setFlag x b) where
  rest := rfl
  reg o ho := reg_setFlag_ne s x b o (hx ▸ ho)
  core _ := rfl

theorem storeOnly_injDone (s : State) : StoreOnly s s.injDone :=
  (storeOnly_setFlag_inj s F.CCD_INJ_ARM false rfl).trans (storeOnly_setFlag_inj _ F.CCD_INJ_DONE true rfl)

theorem storeOnly_consumeInj (s : State) (a : Nat) : StoreOnly s (s.consumeInj a) := by
  unfold State.consumeInj
  refine StoreOnly.ite (StoreOnly.trans ?_ (storeOnly_injDone _)) (.refl s)
  exact StoreOnly.ite (.of_ecc s _) (.of_ecc s _)

theorem storeOnly_wrBytes (s : State) (a : Nat) (bs : List Byte) : StoreOnly s (s.wrBytes a bs) where
  rest := (congrArg (fun t : State => { t with
    ecc := s.ecc, regs := s.regs, cores := s.cores, free := s.free }) (wrBytes_rest bs s a) :)
  reg o _ := (congrArg (fun t : State => t.reg o) (wrBytes_rest bs s a) :)
  core m := (congrArg (fun t : State => { t.core m with resv := (s.core m).resv }) (wrBytes_rest bs s a) :)

theorem storeOnly_loseResv (s : State) (a n : Nat) : StoreOnly s (s.loseResv a n) := by
  unfold State.loseResv
  refine forN_keeps (StoreOnly s) 8 _ s (fun k t ht => ht.trans ?_) (.refl s)
  dsimp only
  split
  · refine StoreOnly.ite ⟨rfl, fun _ _ => rfl, fun m => ?_⟩ (.refl t)
    by_cases hm : m = k
    · rw [hm, core_setCore]
    · rw [core_setCore_ne _ _ _ _ hm]
  · exact .refl t

/-- No store below the cell tables reaches one. -/
theorem touchTable_below (s : State) (a n arm : Nat) (h : a + n ≤ 0x04000000) : s.touchTable a n arm = s := by
  have hb : decide (0x04000000 + 0x100000 * arm < a + n) = false := by simp; omega
  simp only [State.touchTable, hb, Bool.and_false, Bool.false_eq_true, if_false]

theorem mergeRead_whole (s : State) {a n : Nat} (ha : a % 8 = 0) (hn : n % 8 = 0) : s.mergeRead a n = s := by
  have he : (a + n) % 8 = 0 := by omega
  simp only [State.mergeRead, ha, he, if_true, ite_self]

/-- A store of whole ECC words into Hive's regions or below. -/
theorem storeOnly_store (s : State) {a : Nat} {bs : List Byte} (ha : a % 8 = 0) (hn : bs.length % 8 = 0)
    (h : a + bs.length ≤ 0x04000000) : StoreOnly s (s.store a bs) := by
  unfold State.store State.storeOpen
  rw [mergeRead_whole _ ha hn]
  refine StoreOnly.ite (.refl s) ?_
  refine forN_keeps (StoreOnly s) 6 _ _ (fun i t ht => by rwa [touchTable_below t a _ i h]) ?_
  have hw := storeOnly_wrBytes s a bs
  have hp : StoreOnly (s.wrBytes a bs) ((s.wrBytes a bs).clearPoison a bs.length) :=
    .of_ecc _ _
  exact ((hw.trans hp).trans (storeOnly_consumeInj _ a)).trans (storeOnly_loseResv _ a _)

/-! ### Stores of an item and of a descriptor -/

theorem slotAddr_end {i : Nat} (hi : i < poolSize) : slotAddr i + 8 ≤ 0x04000000 := by
  unfold slotAddr poolSize at *; omega

theorem descAddr_end {q : Nat} (hq : q < 1048576) : descAddr q + 16 ≤ 0x03000000 := by
  unfold descAddr; omega

theorem storeOnly_slot (s : State) {i : Nat} {item : List Byte} (hi : i < poolSize) (hl : item.length = 8) :
    StoreOnly s (s.store (slotAddr i) item) :=
  storeOnly_store s (by unfold slotAddr; omega) (by rw [hl]) (by have := slotAddr_end hi; omega)

theorem storeOnly_setDesc (s : State) {q : Nat} (d : QDesc) (hq : q < 1048576) : StoreOnly s (s.setDesc q d) := by
  have hl : d.bytes.length = 16 := rfl
  exact storeOnly_store s (by unfold descAddr; omega) (by rw [hl]) (by have := descAddr_end hq; omega)

theorem bankOpen_sameBank (s : State) {a b : Nat} (hb : b < 0x08000000) (h : a / 0x1000000 = b / 0x1000000) :
    s.bankOpen a = s.bankOpen b := by
  have ha : decide (0x08000000 ≤ a) = false := by simp; omega
  have hb : decide (0x08000000 ≤ b) = false := by simp; omega
  rw [State.bankOpen, State.bankOpen, ha, hb, h]

/-- A store to a bank in use that holds all of it. -/
theorem rd8_store_bank (s : State) {a : Nat} {bs : List Byte} (ha : a < 0x08000000)
    (hb : (a + bs.length - 1) / 0x1000000 = a / 0x1000000) (ho : s.bankOpen a = true) (k : Nat) :
    (s.store a bs).rd8 k = if a ≤ k ∧ k < a + bs.length then bs.getD (k - a) 0 else s.rd8 k := by
  rw [rd8_store s a k bs (Or.inr ha)]
  have hopen : a ≤ k ∧ k < a + bs.length ∧ s.bankOpen k = true ↔ a ≤ k ∧ k < a + bs.length :=
    ⟨fun ⟨hlo, hhi, _⟩ => ⟨hlo, hhi⟩,
      fun ⟨hlo, hhi⟩ => ⟨hlo, hhi, by rw [bankOpen_sameBank s ha (by omega), ho]⟩⟩
  simp only [hopen]

/-! ### Hive besides -/

/-- What `StoreOnly` says, with Hive's own state free to differ. -/
def HiveOnly (s t : State) : Prop := StoreOnly { s with hive := t.hive } t

namespace HiveOnly

variable {s t u : State}

theorem of_store (h : StoreOnly s t) : HiveOnly s t where
  rest := (congrArg (fun v : State => { v with hive := t.hive }) h.rest :)
  reg := h.reg
  core := h.core

theorem of_hive (s : State) (x : Hive) : HiveOnly s { s with hive := x } := .refl _

theorem trans (h : HiveOnly s t) (g : HiveOnly t u) : HiveOnly s u where
  rest := (congrArg (fun v : State => { v with
    mem := s.mem, ecc := s.ecc, regs := s.regs, cores := s.cores, free := s.free }) g.rest).trans
      (congrArg (fun v : State => { v with hive := u.hive }) h.rest :)
  reg o ho := (g.reg o ho).trans (h.reg o ho)
  core m := (congrArg (fun c : CoreSt => { c with resv := (s.core m).resv }) (g.core m)).trans (h.core m)

theorem bankOpen (h : HiveOnly s t) (a : Nat) : t.bankOpen a = s.bankOpen a := StoreOnly.bankOpen h a
theorem noneWaits (h : HiveOnly s t) : t.noneWaits = s.noneWaits :=
  StoreOnly.noneWaits (s := { s with hive := t.hive }) h

theorem run (h : HiveOnly s t) (m : Nat) : (t.core m).run = (s.core m).run := StoreOnly.run h m
theorem pc (h : HiveOnly s t) (m : Nat) : (t.core m).pc = (s.core m).pc := StoreOnly.pc h m
theorem g (h : HiveOnly s t) (m r : Nat) : t.g m r = s.g m r := StoreOnly.g h m r

end HiveOnly

end Sys2Proof.Machine
end

section
/-!
PROOF. A push into a queue with room (R301, R305): the item's slot, the descriptor and the links after it, and
its notification.
-/

namespace Sys2Proof.Machine

/-! ### A push that succeeds (R301) -/

/-- The queue is enabled and has room, the pool has a free slot, and both their banks are in use. -/
structure TakesPush (s : State) (q : Nat) (item : List Byte) : Prop where
  number : q < 1048576
  read : s.clean (descAddr q) 16 = true
  descBank : s.bankOpen (descAddr q) = true
  slotBank : s.bankOpen (slotAddr 0) = true
  started : s.hive.init = false
  noFlush : s.hive.flush ≠ some q
  enabled : (s.desc q).en = true
  room : (s.desc q).depth < 2 ^ (s.desc q).limit
  limit : (s.desc q).limit ≤ 21
  key : (s.desc q).atomic = true → flowKey item < 6144
  rising : rising s.hive.used = true
  pool : s.hive.used.length < poolSize
  bytes : item.length = 8

/-- A descriptor with a slot linked behind its tail. -/
def QDesc.pushed (d : QDesc) (i : Nat) : QDesc :=
  { d with head := if d.depth == 0 then i else d.head, tail := i, depth := d.depth + 1 }

theorem pushed_eq (d : QDesc) (i : Nat) :
    d.pushed i = { d with head := if d.depth = 0 then i else d.head, tail := i, depth := d.depth + 1 } := by
  simp only [QDesc.pushed, beq_iff_eq]

/-- A slot taken out of the pool for an item. -/
def State.allot (s : State) (i : Nat) : State :=
  { s.draw with hive := { s.hive with used := kins i s.hive.used, queued := s.hive.queued + 1 } }

/-- The link of a queue's last item set to a new one. -/
def State.linkTail (s : State) (d : QDesc) (i : Nat) : State :=
  if d.depth == 0 then s else s.setLink d.tail i

/-- An item in its slot and linked, before its queue's descriptor is written. -/
def State.itemLinked (s : State) (q : Nat) (item : List Byte) : State :=
  ((s.allot s.poolSlot).store (slotAddr s.poolSlot) item).linkTail (s.desc q) s.poolSlot

theorem pushItem_eq (q : Nat) (item : List Byte) (s : State) :
    pushItem q item [] s = (s.itemLinked q item).setDesc q ((s.desc q).pushed s.poolSlot) := rfl

theorem descRead_clean (s : State) (q : Nat) (h : s.clean (descAddr q) 16 = true) : descRead q s = s := by
  rw [descRead, correct_clean s _ _ h, ite_self]

/-- What `setLink` changes of Hive is the links. -/
theorem hive_linkTail (s : State) (d : QDesc) (i : Nat) :
    { (s.linkTail d i).hive with link := s.hive.link, linkBad := s.hive.linkBad } = s.hive := by
  unfold State.linkTail State.setLink
  dsimp only
  split
  · rfl
  · split <;> rfl

theorem rd8_linkTail (s : State) (d : QDesc) (i k : Nat) : (s.linkTail d i).rd8 k = s.rd8 k := by
  unfold State.linkTail State.setLink
  dsimp only
  split
  · rfl
  · split <;> rfl

theorem nextSlot_linkTail (s : State) {d : QDesc} {i : Nat} (hd : d.depth ≠ 0) (hi : i < poolSize) :
    (s.linkTail d i).nextSlot d.tail = i := by
  have hd : (d.depth == 0) = false := by simpa using hd
  simp only [State.linkTail, State.nextSlot, State.setLink, hd, Bool.false_eq_true, if_false, tget_tset_same]
  exact Nat.mod_eq_of_lt hi

theorem hiveOnly_linkTail (s : State) (d : QDesc) (i : Nat) : HiveOnly s (s.linkTail d i) := by
  have hset (t : State) (hs : StoreOnly s t) (x : Hive) : HiveOnly s { t with hive := x } :=
    (HiveOnly.of_store hs).trans (.of_hive t x)
  unfold State.linkTail State.setLink
  dsimp only
  split
  · exact .of_store (.refl s)
  · exact hset _ (.ite (storeOnly_injDone s) (.refl s)) _

section Push

variable {s : State} {q : Nat} {item : List Byte}

namespace TakesPush

theorem slot_lt (h : TakesPush s q item) : s.poolSlot < poolSize := (poolSlot_free h.rising h.pool).1
theorem slot_notMem (h : TakesPush s q item) : s.poolSlot ∉ s.hive.used := (poolSlot_free h.rising h.pool).2

theorem hiveOnly_itemLinked (h : TakesPush s q item) : HiveOnly s (s.itemLinked q item) := by
  have hallot : HiveOnly s (s.allot s.poolSlot) := ⟨rfl, fun _ _ => rfl, fun _ => rfl⟩
  exact (hallot.trans (.of_store (storeOnly_slot _ h.slot_lt h.bytes))).trans (hiveOnly_linkTail _ _ _)

theorem hiveOnly (h : TakesPush s q item) : HiveOnly s (pushItem q item [] s) :=
  h.hiveOnly_itemLinked.trans (.of_store (storeOnly_setDesc _ _ h.number))

theorem hive (h : TakesPush s q item) :
    { (pushItem q item [] s).hive with link := s.hive.link, linkBad := s.hive.linkBad } =
      { s.hive with used := kins s.poolSlot s.hive.used, queued := s.hive.queued + 1 } := by
  rw [pushItem_eq, (storeOnly_setDesc _ _ h.number).hive]
  have hslot := (storeOnly_slot (s.allot s.poolSlot) h.slot_lt h.bytes).hive
  have hlink := hive_linkTail ((s.allot s.poolSlot).store (slotAddr s.poolSlot) item) (s.desc q) s.poolSlot
  rw [hslot] at hlink
  exact hlink

/-- Memory after a push: the descriptor and the item's slot are written. -/
theorem rd8 (h : TakesPush s q item) (k : Nat) :
    (pushItem q item [] s).rd8 k =
      if descAddr q ≤ k ∧ k < descAddr q + 16 then
        ((s.desc q).pushed s.poolSlot).bytes.getD (k - descAddr q) 0
      else if slotAddr s.poolSlot ≤ k ∧ k < slotAddr s.poolSlot + 8 then
        item.getD (k - slotAddr s.poolSlot) 0
      else s.rd8 k := by
  have hq := h.number
  have hi := h.slot_lt
  have hdesc : (s.itemLinked q item).bankOpen (descAddr q) = true :=
    (h.hiveOnly_itemLinked.bankOpen _).trans h.descBank
  have hslot : (s.allot s.poolSlot).bankOpen (slotAddr s.poolSlot) = true :=
    (bankOpen_sameBank s (by decide) (by unfold slotAddr poolSize at *; omega)).trans h.slotBank
  have hl : ((s.desc q).pushed s.poolSlot).bytes.length = 16 := rfl
  rw [pushItem_eq, State.setDesc, rd8_store_bank _ (by unfold descAddr; omega)
    (by rw [hl]; unfold descAddr; omega) hdesc, State.itemLinked, rd8_linkTail,
    rd8_store_bank _ (by unfold slotAddr poolSize at *; omega) (by rw [h.bytes]; unfold slotAddr; omega) hslot,
    hl, h.bytes]
  rfl

theorem pushed_fits (h : TakesPush s q item) : ((s.desc q).pushed s.poolSlot).Fits := by
  have hlim : 2 ^ (s.desc q).limit ≤ 2 ^ 21 := Nat.pow_le_pow_right (by decide) h.limit
  have hroom := h.room
  have hi := h.slot_lt
  obtain ⟨hhead, -, -, hntask, hnflag, hlimit⟩ := desc_fits s q
  refine ⟨?_, hi, ?_, hntask, hnflag, hlimit⟩
  · simp only [QDesc.pushed]
    split <;> assumption
  · simp only [QDesc.pushed]
    omega

theorem desc (h : TakesPush s q item) : (pushItem q item [] s).desc q = (s.desc q).pushed s.poolSlot := by
  refine desc_of_bytes h.pushed_fits fun k hk => ?_
  have hb : (pushItem q item [] s).bankOpen (descAddr q + k) = true := by
    have hq := h.number
    rw [h.hiveOnly.bankOpen, bankOpen_sameBank s (b := descAddr q) (by unfold descAddr; omega)
      (by unfold descAddr; omega), h.descBank]
  rw [State.ld8, if_pos hb, h.rd8, if_pos ⟨by omega, by omega⟩, Nat.add_sub_cancel_left]

theorem rd8_slot (h : TakesPush s q item) {k : Nat} (hk : k < 8) :
    (pushItem q item [] s).rd8 (slotAddr s.poolSlot + k) = item.getD k 0 := by
  have hq := descAddr_end h.number
  rw [h.rd8, if_neg (by unfold slotAddr; omega), if_pos ⟨by omega, by omega⟩, Nat.add_sub_cancel_left]

theorem nextSlot (h : TakesPush s q item) (hd : (s.desc q).depth ≠ 0) :
    (pushItem q item [] s).nextSlot (s.desc q).tail = s.poolSlot := by
  rw [← nextSlot_linkTail ((s.allot s.poolSlot).store (slotAddr s.poolSlot) item) hd h.slot_lt, pushItem_eq,
    State.nextSlot, (storeOnly_setDesc _ _ h.number).hive, State.nextSlot, State.itemLinked]

theorem pushCode (h : TakesPush s q item) :
    s.pushCode q item true (poolSize - s.hive.used.length - ([] : List Nat).length) = qOk := by
  have hnum : decide (1048576 ≤ q) = false := by simpa using h.number
  have hqueue : s.queueState q = qOk := by
    simp only [State.queueState, hnum, h.started, poisoned_clean h.read, h.enabled]
    rfl
  have hflush : (s.hive.flush == some q) = false := by simpa using h.noFlush
  have hkey : ((s.desc q).atomic && decide (6 ≤ flowKey item / 1024)) = false := by
    have hk := h.key
    rw [Bool.and_eq_false_iff, decide_eq_false_iff_not]
    cases hat : (s.desc q).atomic
    · exact .inl rfl
    · exact .inr (by have := hk hat; omega)
  have hfull : decide (2 ^ (s.desc q).limit ≤ (s.desc q).depth) = false := by simpa using h.room
  have hpool : (poolSize - s.hive.used.length - ([] : List Nat).length == 0) = false := by
    have := h.pool
    simp only [List.length_nil, beq_eq_false_iff_ne]
    omega
  simp only [State.pushCode, hqueue, hflush, hkey, hfull, hpool]
  rfl

end TakesPush

end Push

/-! ### The notification (R305) -/

section Notify

variable (q : Nat) (s : State)

theorem pushNotify_rest : { pushNotify q s with hive := s.hive } = s := by
  unfold pushNotify
  dsimp only
  split <;> rfl

theorem hive_pushNotify : { (pushNotify q s).hive with tasks := s.hive.tasks } = s.hive := by
  unfold pushNotify
  dsimp only
  split <;> rfl

theorem hiveOnly_pushNotify : HiveOnly s (pushNotify q s) := by
  unfold pushNotify
  dsimp only
  split
  · exact .of_hive s _
  · exact .of_store (.refl s)

theorem desc_pushNotify : (pushNotify q s).desc q = s.desc q :=
  (congrArg (fun t : State => t.desc q) (pushNotify_rest q s) :)

theorem rd8_pushNotify (k : Nat) : (pushNotify q s).rd8 k = s.rd8 k :=
  (congrArg (fun t : State => t.rd8 k) (pushNotify_rest q s) :)

theorem nextSlot_pushNotify (i : Nat) : (pushNotify q s).nextSlot i = s.nextSlot i :=
  (congrArg (fun x : Hive => tget (fun _ => 0) x.link i % poolSize) (hive_pushNotify q s) :)

variable {q s}

theorem flag_pushNotify (hn : (s.desc q).nen = true) (hd : (s.desc q).depth = 1) :
    ((pushNotify q s).htask (s.desc q).ntask).flags.getLsbD (s.desc q).nflag = true := by
  have hf : (s.desc q).nflag < 64 := (desc_fits s q).nflag
  have hset : pushNotify q s = hivSetFlag (s.desc q).ntask (s.desc q).nflag s := if_pos (by rw [hn, hd]; rfl)
  rw [hset, hivSetFlag, htask_setHtask]
  simp only [BitVec.getLsbD_or, BitVec.getLsbD_ofNat, Nat.testBit_two_pow_self, hf, decide_true, Bool.and_self,
    Bool.or_true]

theorem pushNotify_none (h : (s.desc q).nen = false ∨ (s.desc q).depth ≠ 1) : pushNotify q s = s := by
  refine if_neg fun hc => ?_
  rw [Bool.and_eq_true, beq_iff_eq] at hc
  obtain ⟨hn, hd⟩ := hc
  exact h.elim (by simp [hn]) (absurd hd)

end Notify

/-! ### The state after a push -/

/-- An item pushed and its task notified. -/
def State.afterPush (s : State) (q : Nat) (item : List Byte) : State := pushNotify q (pushItem q item [] s)

namespace TakesPush

variable {s : State} {q : Nat} {item : List Byte}

theorem hivPush (h : TakesPush s q item) : hivPush q item s = (0, s.afterPush q item) := by
  rw [Machine.hivPush, pushAlone, descRead_clean s q h.read, h.pushCode]
  rfl

theorem hiveOnly_afterPush (h : TakesPush s q item) : HiveOnly s (s.afterPush q item) :=
  h.hiveOnly.trans (hiveOnly_pushNotify _ _)

theorem hive_afterPush (h : TakesPush s q item) :
    { (s.afterPush q item).hive with link := s.hive.link, linkBad := s.hive.linkBad, tasks := s.hive.tasks } =
      { s.hive with used := kins s.poolSlot s.hive.used, queued := s.hive.queued + 1 } :=
  (congrArg (fun x : Hive => { x with link := s.hive.link, linkBad := s.hive.linkBad, tasks := s.hive.tasks })
    (hive_pushNotify q (pushItem q item [] s))).trans
    (congrArg (fun x : Hive => { x with tasks := s.hive.tasks }) h.hive :)

theorem desc_afterPush (h : TakesPush s q item) : (s.afterPush q item).desc q = (s.desc q).pushed s.poolSlot :=
  (desc_pushNotify _ _).trans h.desc

theorem rd8_afterPush_slot (h : TakesPush s q item) {k : Nat} (hk : k < 8) :
    (s.afterPush q item).rd8 (slotAddr s.poolSlot + k) = item.getD k 0 :=
  (rd8_pushNotify _ _ _).trans (h.rd8_slot hk)

theorem rd8_afterPush_elsewhere (h : TakesPush s q item) {k : Nat}
    (hslot : ¬(slotAddr s.poolSlot ≤ k ∧ k < slotAddr s.poolSlot + 8))
    (hdesc : ¬(descAddr q ≤ k ∧ k < descAddr q + 16)) : (s.afterPush q item).rd8 k = s.rd8 k := by
  rw [State.afterPush, rd8_pushNotify, h.rd8, if_neg hdesc, if_neg hslot]

theorem nextSlot_afterPush (h : TakesPush s q item) (hd : (s.desc q).depth ≠ 0) :
    (s.afterPush q item).nextSlot (s.desc q).tail = s.poolSlot :=
  (nextSlot_pushNotify _ _ _).trans (h.nextSlot hd)

theorem htask_pushItem (h : TakesPush s q item) (k : Nat) : (pushItem q item [] s).htask k = s.htask k :=
  (congrArg (fun x : Hive => tget (fun _ => {}) x.tasks k) h.hive :)

/-- A push that takes DEPTH from 0 to 1 sets the notified task's flag. -/
theorem flag_afterPush (h : TakesPush s q item) (hn : (s.desc q).nen = true) (hd : (s.desc q).depth = 0) :
    ((s.afterPush q item).htask (s.desc q).ntask).flags.getLsbD (s.desc q).nflag = true := by
  have hflag := flag_pushNotify (q := q) (s := pushItem q item [] s)
  rw [h.desc] at hflag
  exact hflag hn (congrArg (· + 1) hd)

/-- Without NEN, or at DEPTH 1 or above, a push sets no flag. -/
theorem htask_afterPush (h : TakesPush s q item) (hq : (s.desc q).nen = false ∨ (s.desc q).depth ≠ 0)
    (k : Nat) :
    (s.afterPush q item).htask k = s.htask k := by
  have hnone := pushNotify_none (q := q) (s := pushItem q item [] s)
  rw [h.desc] at hnone
  rw [State.afterPush, hnone (hq.imp_right fun hd => by simpa [QDesc.pushed] using hd), h.htask_pushItem]

end TakesPush

end Sys2Proof.Machine
end

section
/-!
PROOF. QPUSH of a core at an instruction, with an empty store buffer (R301, R305).
-/

namespace Sys2Proof.Machine

theorem drainAll_drained (n : Nat) (s : State) (h : s.drained n = true) : drainAll n s = s := by
  have hb : (s.core n).sb.any (fun _ => true) = false := by rw [List.isEmpty_iff.1 h]; rfl
  exact forN_fix _ _ _ fun _ _ => by simp only [hb, Bool.false_eq_true, if_false]

/-- A read of a block instruction that meets no error. -/
theorem blockRead_clean (n : Nat) (f : State → State) (s : State) {a k : Nat} (hr : rangeReadable a k = true)
    (hc : s.clean a k = true) : blockRead n a k f s = f s := by
  simp only [blockRead, hr, checkRead_clean s a k hc, poisoned_clean hc, Bool.not_true, Bool.false_eq_true,
    if_false]

/-- The end of an instruction, from the state that the instruction has led to. -/
theorem retiredWith_retire {s t : State} (n rd : Nat) (v : Word) (hpc : (t.core n).pc = (s.core n).pc)
    (hg : ∀ r, t.g n r = s.g n r) : retiredWith n rd v s (t.retire n rd v) := by
  unfold retiredWith State.g State.retire
  rw [core_setCore]
  refine ⟨?_, rfl, greg_setG _ _ _, fun r hr => (greg_setG_ne _ _ _ _ hr).trans (hg r)⟩
  rw [← hpc]
  exact congrArg (· + 4) (setG_pc _ _ _)

theorem noneWaits_retire {s : State} {n : Nat} (rd : Nat) (v : Word) (h : s.noneWaits = true)
    (hr : (s.core n).run = true) : (s.retire n rd v).noneWaits = true :=
  noneWaits_setCore_run h ((setG_run _ _ _).trans hr) (setG_startDue _ _ _) (setG_halted _ _ _)

/-- The bytes that a push takes from memory. -/
def State.itemAt (s : State) (a : Word) : List Byte := s.rdBytes a.toNat 8

theorem getD_itemAt (s : State) (a : Word) {k : Nat} (hk : k < 8) :
    (s.itemAt a).getD k 0 = s.ld8 (a.toNat + k) := by
  simp [State.itemAt, State.rdBytes, hk]

theorem qpush_alone {s : State} {n rs1 rs2 : Nat} (rd : Nat) (hd : s.drained n = true)
    (hr : rangeReadable (s.g n rs2).toNat 8 = true) (hc : s.clean (s.g n rs2).toNat 8 = true)
    (h : TakesPush s (s.g n rs1).toNat (s.itemAt (s.g n rs2))) :
    qpush n rd rs1 rs2 none s = (s.afterPush (s.g n rs1).toNat (s.itemAt (s.g n rs2))).retire n rd 0 := by
  rw [qpush, drainAll_drained n s hd, blockRead_clean n _ s hr hc]
  exact congrArg (fun r : Word × State => r.2.retire n rd r.1) h.hivPush

/-- What only core n and the free values drawn set apart takes the same pushes. -/
theorem TakesPush.of_onlyCore {n q : Nat} {item : List Byte} {s t : State} (h : TakesPush s q item)
    (ho : onlyCore n s t) : TakesPush t q item := by
  obtain ⟨hst, -⟩ := ho
  rw [← hst] at h
  exact ⟨h.number, h.read, h.descBank, h.slotBank, h.started, h.noFlush, h.enabled, h.room, h.limit, h.key,
    h.rising, h.pool, h.bytes⟩

theorem exists_eq_of_onlyCore {n : Nat} {s t : State} (h : onlyCore n s t) :
    ∃ cores free, t = { s with cores := cores, free := free } :=
  ⟨t.cores, t.free, (congrArg (fun v : State => { v with cores := t.cores, free := t.free }) h.1 :)⟩

/-- QPUSH of a core at an instruction, up to the fill of its instruction cache that its fetch may make. -/
theorem exec_qpush_alone {s : State} {n : Core} {rs1 rs2 : GReg} (rd : GReg) (hat : s.atInstr n = true)
    (hd : s.drained n = true) (hr : rangeReadable (s.g n rs2).toNat 8 = true)
    (hc : s.clean (s.g n rs2).toNat 8 = true)
    (h : TakesPush s (s.g n rs1).toNat (s.itemAt (s.g n rs2))) :
    ∃ s0 t, onlyCore n s s0 ∧ t = (s0.afterPush (s.g n rs1).toNat (s.itemAt (s.g n rs2))).retire n rd 0 ∧
      exec (.qpush ⟨n.val, by omega⟩ rd rs1 rs2 none) s = .next t ∧ retiredWith n rd 0 s t := by
  obtain ⟨s0, hs0, ho, hcore, hn⟩ := scalar_atInstr_core
    (fun t => if n.val = coreBs then t.illegal n else qpush n rd rs1 rs2 none t) hat
  obtain ⟨-, hrun, -, -⟩ := atInstr_run s n hat
  have ⟨hst, _⟩ := ho
  have hg (r : Nat) : s0.g n r = s.g n r := by rw [State.g, hcore]; rfl
  have hitem : s0.itemAt (s.g n rs2) = s.itemAt (s.g n rs2) :=
    (congrArg (fun v : State => v.itemAt (s.g n rs2)) hst :)
  have h0 := h.of_onlyCore ho
  have hpush : qpush n rd rs1 rs2 none s0 =
      (s0.afterPush (s.g n rs1).toNat (s.itemAt (s.g n rs2))).retire n rd 0 := by
    have hd0 : s0.drained n = true := by rw [State.drained, hcore]; exact hd
    have hc0 : s0.clean (s.g n rs2).toNat 8 = true := by rw [← hst] at hc; exact hc
    have := qpush_alone (s := s0) (n := n) (rs1 := rs1) (rs2 := rs2) rd hd0
    rw [hg, hg, hitem] at this
    exact this hr hc0 h0
  have honly := h0.hiveOnly_afterPush
  have hw := noneWaits_retire (n := n) rd 0 (honly.noneWaits.trans hn)
    ((honly.run n).trans (by rw [hcore]; exact hrun))
  rw [if_neg (by have := n.isLt; unfold coreBs; omega), hpush, settled_noneWaits _ hw] at hs0
  exact ⟨s0, _, ho, rfl, congrArg Host.Outcome.next hs0, retiredWith_retire _ _ _
    ((honly.pc n).trans (by rw [hcore])) fun r => (honly.g n r).trans (hg r)⟩

/-- Settles O21: QPUSH acts on the state its fetch leaves, the item goes to a slot that the pool's sorted list
of slots in use does not hold, and the descriptor written reads back with the slot behind its tail. -/
theorem queuePushAppends : Obligations.QueuePushAppends := by
  unfold Obligations.QueuePushAppends
  intro n rd rs1 rs2 s hat hdr hcanon m q a d hread hclean hdesc hq hdescBank hslotBank hinit hflush hen hroom
    hlimit hkey hpool
  have hrising : rising s.hive.used = true := by
    simp only [State.canon, Bool.and_eq_true] at hcanon
    obtain ⟨⟨⟨-, hused⟩, -⟩, -⟩ := hcanon
    exact hused
  have htakes : TakesPush s q (s.itemAt (s.g n rs2)) := ⟨hq, hdesc, hdescBank, hslotBank, hinit, hflush, hen,
    hroom, hlimit, hkey, hrising, hpool, by simp [State.itemAt, State.rdBytes]⟩
  obtain ⟨s0, t, ho, ht, hexec, hret⟩ := exec_qpush_alone rd hat hdr hread hclean htakes
  have h0 := htakes.of_onlyCore ho
  obtain ⟨cores, free, rfl⟩ := exists_eq_of_onlyCore ho
  refine ⟨t, _, hexec, hret, h0.slot_lt, h0.slot_notMem, ?_⟩
  subst ht
  have hhive := h0.hive_afterPush
  exact ⟨(congrArg Hive.used hhive :), (congrArg Hive.queued hhive :), (congrArg Hive.svc hhive :),
    fun k hk => (h0.rd8_afterPush_slot hk).trans (getD_itemAt s _ hk), h0.desc_afterPush.trans (pushed_eq d _),
    h0.nextSlot_afterPush, h0.flag_afterPush, h0.htask_afterPush, fun k => h0.rd8_afterPush_elsewhere⟩

end Sys2Proof.Machine
end
